-- ==== Sys2Proof/Word.lean ====
section
/-! DEFINITION. The plain data the model is built of: bytes, triples of numbers, four things of a kind (one per
winch) and eight things of a kind (one per lane). -/

namespace Sys2Proof

/-- One byte of a frame, a code or a tag (chapter 11). -/
abbrev Byte := BitVec 8

/-- A triple x, y, z: a position in mm or in µm, or a velocity in mm/s (Conventions, "The pitch frame"). -/
structure Vec3 where
  x : Int
  y : Int
  z : Int
  deriving DecidableEq, Repr

/-- Four things of a kind, numbered 0 to 3 as winches and anchors are (Conventions, "Winch and lane numbering"). -/
structure Quad (α : Type) where
  w0 : α
  w1 : α
  w2 : α
  w3 : α
  deriving DecidableEq, Repr

/-- Eight things of a kind, numbered 0 to 7 as the sense lanes are. -/
structure Oct (α : Type) where
  l0 : α
  l1 : α
  l2 : α
  l3 : α
  l4 : α
  l5 : α
  l6 : α
  l7 : α
  deriving DecidableEq, Repr

/-- The number of a winch. -/
abbrev Winch := Fin 4

/-- The number of a sense lane. -/
abbrev Lane := Fin 8

namespace Quad

def all {α : Type} (a : α) : Quad α := ⟨a, a, a, a⟩

def get {α : Type} (q : Quad α) : Winch → α
  | 0 => q.w0
  | 1 => q.w1
  | 2 => q.w2
  | 3 => q.w3

def set {α : Type} (q : Quad α) (w : Winch) (a : α) : Quad α :=
  match w with
  | 0 => { q with w0 := a }
  | 1 => { q with w1 := a }
  | 2 => { q with w2 := a }
  | 3 => { q with w3 := a }

def map {α β : Type} (f : α → β) (q : Quad α) : Quad β := ⟨f q.w0, f q.w1, f q.w2, f q.w3⟩

def toList {α : Type} (q : Quad α) : List α := [q.w0, q.w1, q.w2, q.w3]

end Quad

namespace Oct

def all {α : Type} (a : α) : Oct α := ⟨a, a, a, a, a, a, a, a⟩

def get {α : Type} (q : Oct α) : Lane → α
  | 0 => q.l0
  | 1 => q.l1
  | 2 => q.l2
  | 3 => q.l3
  | 4 => q.l4
  | 5 => q.l5
  | 6 => q.l6
  | 7 => q.l7

def set {α : Type} (q : Oct α) (l : Lane) (a : α) : Oct α :=
  match l with
  | 0 => { q with l0 := a }
  | 1 => { q with l1 := a }
  | 2 => { q with l2 := a }
  | 3 => { q with l3 := a }
  | 4 => { q with l4 := a }
  | 5 => { q with l5 := a }
  | 6 => { q with l6 := a }
  | 7 => { q with l7 := a }

def map {α β : Type} (f : α → β) (q : Oct α) : Oct β :=
  ⟨f q.l0, f q.l1, f q.l2, f q.l3, f q.l4, f q.l5, f q.l6, f q.l7⟩

def toList {α : Type} (q : Oct α) : List α := [q.l0, q.l1, q.l2, q.l3, q.l4, q.l5, q.l6, q.l7]

end Oct

/-- The winches in ascending number, the order in which every rule takes them. -/
def winches : List Winch := [0, 1, 2, 3]

/-- The lanes in ascending number. -/
def lanes : List Lane := [0, 1, 2, 3, 4, 5, 6, 7]

end Sys2Proof
end

