-- ==== Sys2Proof/Config.lean ====
section
/-! DEFINITION. The numbers the manual fixes for every part, and the free values (opaque, no body) that stand where
the manual states no value. -/

namespace Sys2Proof.Config

/-- R21: the zone table holds at most 48 records. -/
@[simp] abbrev maxZones : Nat := 48

/-- R49: mark numbers run from 0 to 63. -/
@[simp] abbrev maxMarkNumber : Nat := 63

/-- R65: the queue holds at most 8 entries. -/
@[simp] abbrev maxEntries : Nat := 8

/-- R66: move ids run from 1 to 65,535. -/
@[simp] abbrev maxMoveId : Nat := 65535

/-- R173: a notice queue holds up to 16 notices. -/
@[simp] abbrev maxNotices : Nat := 16

/-- R169 step 1: a frame is discarded while 4 or more answers wait. -/
@[simp] abbrev maxAnswers : Nat := 4

/-- R167: a body has 0 to 240 bytes. -/
@[simp] abbrev maxBody : Nat := 240

/-- Table 2-1, R27: the greatest margin, mm. -/
@[simp] abbrev maxMargin : Nat := 5000

/-- Table 2-1, R27: the greatest lifetime, s. -/
@[simp] abbrev maxLifetime : Nat := 14400

/-- R53: the greatest label length. -/
@[simp] abbrev maxLabel : Nat := 16

/-- R67: the tolerance that 0 stands for, and the greatest, mm. -/
@[simp] abbrev defaultTolerance : Nat := 20
@[simp] abbrev maxTolerance : Nat := 500

/-- R67: the greatest dwell, ms. -/
@[simp] abbrev maxDwell : Nat := 60000

/-- R79: the number of braked steps at rest after which a move has stalled. -/
@[simp] abbrev stallLimit : Nat := 250

/-- R90: the steer age at which the vector is no longer used, periods. -/
@[simp] abbrev steerLife : Nat := 50

/-- R131: every built-in filter coefficient. -/
@[simp] abbrev builtInCoeff : Int := 341

/-- R140: the number of matching words that passes a lane check. -/
@[simp] abbrev checkWords : Nat := 64

/-- R137, R149: the count at which a protection or tracking report is handed. -/
@[simp] abbrev protectLimit : Nat := 3

/-- R147: the illegal transitions in one window that raise ENCODER. -/
@[simp] abbrev illegalLimit : Nat := 4

/-- R161: the failed attempts in a row that raise LINK_LOST. -/
@[simp] abbrev failureLimit : Nat := 16

/-- Table 9-2: the watch age limits, periods. -/
@[simp] abbrev shortLimit : Nat := 10
@[simp] abbrev longLimit : Nat := 60

/-- R163: the periods from one keepalive to the next. -/
@[simp] abbrev keepalivePeriods : Nat := 25

/-- R16: the status age at which a drive is no longer fresh at RIG_COMMIT, periods. -/
@[simp] abbrev commitFresh : Nat := 10

/-- R1: servo period expiries to a second tick. -/
@[simp] abbrev periodsPerTick : Nat := 250

/-- FREE VALUE (entry 9). R44, R59 and R85 give a listing's count of ITEMs in the one byte detail1; a listing of the
queue can send more than 255, and no rule states the byte then. -/
opaque wideCount : Nat → Byte

/-- FREE VALUE (entry 9). R148 forms the measured length in 64 bits and R182 reports it in 32; no rule states the
field for a length outside the signed 32-bit range. -/
opaque wideLength : Int → BitVec 32

end Sys2Proof.Config
end

