-- ==== Sys2Proof/Syntax.lean ====
section
/-! DEFINITION. The commands: one constructor of `Instr` per row of spec/opcode_table.json, with what the row's event
carries as operands. Request fields are taken at the full width of their place in the body (R179), so a field holds
a plain number and the owner judges it. -/

namespace Sys2Proof

/-- The two request ports (chapter 10). -/
inductive Port where
  | rig
  | safety
  deriving DecidableEq, Repr

/-- The levels of the two lines of one encoder pair (R146). -/
structure Levels where
  a : Bool
  b : Bool
  deriving DecidableEq, Repr

/-- The input lines as they stand at a hard reset: R145 samples the encoder levels, and the e-stop line has a level
of its own (entry 5). -/
structure ResetLines where
  encoders : Quad Levels
  estop : Bool
  deriving DecidableEq, Repr

/-- A frame received on the drive bus (R164): an 11-bit or a 29-bit identifier, and its data bytes. -/
inductive CanFrame where
  | standard (id : BitVec 11) (data : List Byte)
  | extended (id : BitVec 29) (data : List Byte)
  deriving DecidableEq, Repr

/-- How a transmission on the drive bus ends (R161). -/
inductive TxOutcome where
  | acknowledged
  | lost
  | failed
  deriving DecidableEq, Repr

/-- The body of a ZONE_ADD (Table 11-1). A lifetime of 0 means absent. -/
structure ZoneAddBody where
  kind : Nat
  least : Vec3
  greatest : Vec3
  margin : Nat
  lifetime : Nat
  deriving DecidableEq, Repr

/-- The body of a ZONE_EDIT (Table 11-1). -/
structure ZoneEditBody where
  zone : Nat
  least : Vec3
  greatest : Vec3
  margin : Nat
  instruction : Nat
  lifetime : Nat
  deriving DecidableEq, Repr

/-- The body of a MARK_SET (Table 11-1). The label count is the length of the label. A speed cap of 0 means absent. -/
structure MarkSetBody where
  mark : Nat
  point : Vec3
  speedCap : Nat
  label : List Byte
  deriving DecidableEq, Repr

/-- The body of a MARK_HERE (Table 11-1). -/
structure MarkHereBody where
  mark : Nat
  speedCap : Nat
  label : List Byte
  deriving DecidableEq, Repr

/-- The body of a MOVE_ADD (Table 11-1). -/
structure MoveAddBody where
  kind : Nat
  mark : Nat
  point : Vec3
  speedCap : Nat
  tolerance : Nat
  dwell : Nat
  release : Nat
  deriving DecidableEq, Repr

/-- The commands, in the order of the table. A request carries its port and its tag (R169). The commands without
operands after `zoneStepResult` take what the handing block left in State (entry 1). -/
inductive Instr where
  | hardReset (lines : ResetLines)
  | servoStep
  | setpointWrite
  | zoneStepResult
  | queueStepResult
  | dwellEnd
  | carrierStepResult
  | drumStepResult
  | zoneSecondTick
  | zoneLapse (zone : Nat)
  | drumSecondTick
  | windSecondTick
  | windHoldChange
  | anemometerPulse
  | encoderTransition (winch : Winch) (levels : Levels)
  | sampleArrival (lane : Lane) (word : BitVec 16)
  | silenceExpiry (lane : Lane)
  | cueEdge
  | estopActive (level : Bool)
  | faultReport
  | freeze
  | raiseStop
  | drivePeriodExpiry
  | statusTimeout (winch : Winch)
  | keepalive
  | transmitBegin
  | transmissionEnd (outcome : TxOutcome)
  | statusReceived (frame : CanFrame)
  | travelBegun
  | travelEnded
  | endTravel
  | changeInForceReport
  | retirementReport
  | replacementReport
  | stateChangeReport
  | receiveCharacter (port : Port) (byte : Byte) (stopBit : Bool)
  | receiveGap (port : Port)
  | requestFrame (port : Port)
  | portLineFree (port : Port)
  | portPeriodExpiry (port : Port)
  | telemetryDue (port : Port)
  | set (port : Port) (tag : Byte) (id : Nat) (index : Nat) (value : Vec3)
  | get (port : Port) (tag : Byte) (id : Nat) (index : Nat)
  | rigCommit (port : Port) (tag : Byte) (pose : Vec3)
  | unrig (port : Port) (tag : Byte)
  | laneCheck (port : Port) (tag : Byte) (lane : Nat)
  | zoneAdd (port : Port) (tag : Byte) (body : ZoneAddBody)
  | zoneEdit (port : Port) (tag : Byte) (body : ZoneEditBody)
  | zoneRetire (port : Port) (tag : Byte) (zone : Nat)
  | zoneLock (port : Port) (tag : Byte) (zone : Nat)
  | zoneUnlock (port : Port) (tag : Byte) (zone : Nat)
  | zoneFix (port : Port) (tag : Byte) (zone : Nat)
  | zoneRead (port : Port) (tag : Byte) (zone : Nat)
  | zoneList (port : Port) (tag : Byte) (filter : Nat) (code : Nat)
  | markSet (port : Port) (tag : Byte) (body : MarkSetBody)
  | markHere (port : Port) (tag : Byte) (body : MarkHereBody)
  | markRetire (port : Port) (tag : Byte) (mark : Nat)
  | markRead (port : Port) (tag : Byte) (mark : Nat)
  | markList (port : Port) (tag : Byte) (filter : Nat)
  | moveAdd (port : Port) (tag : Byte) (body : MoveAddBody)
  | moveCancel (port : Port) (tag : Byte) (id : Nat)
  | queueClear (port : Port) (tag : Byte)
  | queueList (port : Port) (tag : Byte)
  | run (port : Port) (tag : Byte)
  | stop (port : Port) (tag : Byte)
  | takeStick (port : Port) (tag : Byte)
  | steer (port : Port) (tag : Byte) (velocity : Vec3)
  | releaseStick (port : Port) (tag : Byte)
  | park (port : Port) (tag : Byte)
  | unpark (port : Port) (tag : Byte)
  | halt (port : Port) (tag : Byte)
  | clearHalt (port : Port) (tag : Byte)
  | abort (port : Port) (tag : Byte)
  deriving DecidableEq, Repr

end Sys2Proof
end

