-- ==== Sys2Proof/Machine/State.lean ====
section
/-! DEFINITION. Everything the manual gives the part to hold, block by block, as plain data, and `State.reset`.
INVENTORY.md lists each piece with its rule and its reset value. -/

namespace Sys2Proof.Machine

/-! ## Boxes -/

/-- A box by its least and greatest value on each axis, faces included (Conventions, "Boxes"). -/
structure Box where
  lo : Vec3
  hi : Vec3
  deriving DecidableEq, Repr

/-! ## Settings store (Tables 1-2 and 1-3) -/

/-- The two cells of a winch (R129). -/
inductive Cell where
  | a
  | b
  deriving DecidableEq, Repr

/-- What LANE_MAP names for a lane in use: one winch with one cell. -/
structure CellName where
  winch : Winch
  cell : Cell
  deriving DecidableEq, Repr

inductive LaneFormat where
  | offset
  | twos
  deriving DecidableEq, Repr

inductive FilterMode where
  | builtIn
  | custom
  deriving DecidableEq, Repr

/-- The settings of Tables 1-2 and 1-3, but TELEMETRY_INTERVAL, which each port holds (R174). -/
structure Settings where
  anchor : Quad Vec3
  lenMin : Quad Int
  lenMax : Quad Int
  drumScale : Quad Int
  lineSpeed : Quad Int
  speedCap : Int
  accelRate : Int
  stopRate : Int
  trackTol : Int
  laneMap : Oct (Option CellName)
  laneFormat : Oct LaneFormat
  laneGain : Oct Int
  laneScale : Oct Int
  lanePattern : Oct (BitVec 16 × BitVec 16)
  filterMode : FilterMode
  filterCoeff : List Int
  busRate : Int
  busTxBase : Nat
  acceptCode : BitVec 11
  acceptMask : BitVec 11
  windCmPerPulse : Int
  capTrim : Int
  tensionSlack : Quad Int
  tensionWarn : Quad Int
  tensionMax : Quad Int
  disagreeTol : Int
  windFull : Int
  windStop : Int
  derateFloor : Int
  deriving DecidableEq, Repr

/-! ## Zone table (chapter 2) -/

inductive ZoneKind where
  | keepOut
  | keepIn
  deriving DecidableEq, Repr

inductive ZoneState where
  | pending
  | active
  | overdue
  deriving DecidableEq, Repr

inductive ZoneLock where
  | opened
  | locked
  | fixed
  deriving DecidableEq, Repr

/-- A zone record (Table 2-1). The extent's corners are in mm; the lifetime is in seconds. -/
structure Zone where
  number : Nat
  kind : ZoneKind
  origin : Port
  state : ZoneState
  lock : ZoneLock
  least : Vec3
  greatest : Vec3
  margin : Nat
  lifetime : Option Nat
  deriving DecidableEq, Repr

/-! ## Mark table (chapter 3) -/

inductive MarkState where
  | clear
  | blocked
  deriving DecidableEq, Repr

/-- A mark record (Table 3-1). -/
structure Mark where
  number : Nat
  point : Vec3
  speedCap : Option Nat
  label : List Byte
  state : MarkState
  blocker : Nat
  deriving DecidableEq, Repr

/-! ## Move queue (chapter 4) -/

inductive Target where
  | mark (number : Nat)
  | point (at_ : Vec3)
  deriving DecidableEq, Repr

inductive Release where
  | immediate
  | cue
  deriving DecidableEq, Repr

inductive EntryState where
  | queued
  | armed
  | running
  | dwelling
  deriving DecidableEq, Repr

inductive LookAhead where
  | unchecked
  | clear
  | blocked
  deriving DecidableEq, Repr

/-- The bound point in µm with the bound cap, set together at the start (R75). -/
structure Bound where
  point : Vec3
  cap : Option Nat
  deriving DecidableEq, Repr

/-- A move entry (Table 4-1). `serial` is the model's own: the order of addition, which the cursor of QUEUE_LIST
follows (R85, entry 7). -/
structure Entry where
  id : Nat
  serial : Nat
  target : Target
  markRetired : Bool
  speedCap : Option Nat
  tolerance : Nat
  dwellMs : Nat
  dwell : Nat
  release : Release
  state : EntryState
  bound : Option Bound
  lookAhead : LookAhead
  eta : Nat
  remaining : Nat
  stall : Nat
  deriving DecidableEq, Repr

/-- The move queue: the entries, oldest first (R65), the next move number (R66), the travel flag and the number of
the travel begun taken last (R72), and the next order of addition. -/
structure MoveQueue where
  entries : List Entry
  nextId : Nat
  travelFlag : Bool
  lastBegun : Nat
  nextSerial : Nat
  deriving DecidableEq, Repr

/-- The reason the queue hands with end travel (R72). -/
inductive EndReason where
  | empty
  | drop
  | stall
  | cancel
  | clear
  deriving DecidableEq, Repr

/-! ## Carrier control (chapter 5) -/

inductive Sub where
  | stopping
  | stopped
  deriving DecidableEq, Repr

/-- The mode; the sub-state is present in HALTED only (Table 5-1). -/
inductive Mode where
  | offline
  | hold
  | steer
  | travel
  | parked
  | halted (sub : Sub)
  deriving DecidableEq, Repr

/-- The nine halt causes (Table 5-4). -/
inductive Cause where
  | estop
  | request
  | overload
  | slack
  | senseLost
  | encoder
  | tracking
  | driveFault
  | linkLost
  deriving DecidableEq, Repr

/-- A cause with its winch, where it has one: a fault report, and the first cause (R99). -/
structure Report where
  cause : Cause
  winch : Option Winch
  deriving DecidableEq, Repr

/-- Carrier control's state (Table 5-1), with the number of travel begun hand-offs made (R72). -/
structure Carrier where
  mode : Mode
  causes : List Cause
  first : Option Report
  poseLost : Bool
  stickOwned : Bool
  steer : Vec3
  steerAge : Nat
  windMirror : Bool
  lastAtRest : Bool
  begun : Nat
  deriving DecidableEq, Repr

/-! ## Path generator (chapter 6) -/

inductive Verdict where
  | accepted
  | atRest
  | braked
  deriving DecidableEq, Repr

inductive Factor where
  | setting
  | move
  | wind
  | tension
  deriving DecidableEq, Repr

/-- The path generator's state (Table 6-1). -/
structure Path where
  pose : Vec3
  vel : Vec3
  box : Box
  verdict : Verdict
  lengths : Quad Int
  count : BitVec 8
  cap : Int
  factor : Factor
  deriving DecidableEq, Repr

/-- A published step result (R124). -/
structure StepResult where
  pose : Vec3
  vel : Vec3
  box : Box
  verdict : Verdict
  atRest : Bool
  arrival : Bool
  deriving DecidableEq, Repr

/-! ## Tension front end (Table 7-1) -/

inductive LaneState where
  | unchecked
  | checking
  | good
  | bad
  | stale
  deriving DecidableEq, Repr

/-- Check progress: the last pattern code matched, absent before the first, and the number matched (R140). -/
structure Check where
  last : Option (BitVec 16)
  matched : Nat
  deriving DecidableEq, Repr

/-- One lane. `watch` says whether the silence watch is armed (entry 14). -/
structure LaneRec where
  state : LaneState
  history : List Int
  samples : Nat
  latest : Int
  valid : Bool
  watch : Bool
  check : Option Check
  deriving DecidableEq, Repr

inductive SourceFlag where
  | pair
  | disagree
  | single
  | none
  deriving DecidableEq, Repr

/-- One winch: its tension and flag, its protection counts, and the latest output of each of its cells (R129). -/
structure WinchRec where
  tension : Int
  flag : SourceFlag
  overload : Nat
  slack : Nat
  cellA : Int
  cellB : Int
  deriving DecidableEq, Repr

structure Tension where
  lanes : Oct LaneRec
  winches : Quad WinchRec
  cap : Int
  deriving DecidableEq, Repr

/-! ## Drum counters and wind gauge input (Tables 8-1 and 8-3) -/

structure Drum where
  levels : Levels
  count : BitVec 32
  countRef : Option (BitVec 32)
  lengthRef : Option Int
  illegal : Nat
  exceed : Nat
  deriving DecidableEq, Repr

structure Wind where
  pulses : Nat
  speed : Int
  cap : Int
  hold : Bool
  deriving DecidableEq, Repr

/-! ## Drive bus controller (Table 9-1) -/

/-- The content of a set-point slot. -/
structure Setpoint where
  length : Int
  seq : BitVec 8
  brake : Bool
  deriving DecidableEq, Repr

/-- The content of a frame in flight: a STOP with its first cause, or the set-point of a winch. -/
inductive TxContent where
  | stop (first : Option Cause)
  | setpoint (winch : Winch) (content : Setpoint)
  deriving DecidableEq, Repr

/-- A frame in flight, formed when the transmission was begun (R157). -/
structure Flight where
  content : TxContent
  id : Nat
  rate : Int
  data : List Byte
  deriving DecidableEq, Repr

inductive TimeoutClass where
  | short
  | long
  deriving DecidableEq, Repr

inductive DriveState where
  | ready
  | running
  | braked
  | fault
  deriving DecidableEq, Repr

/-- One drive record. `timeoutDue` is the model's own: the watch age has just reached its limit and the report is not
yet handed (entry 2). -/
structure Drive where
  statusAge : Option Nat
  watchAge : Nat
  state : Option DriveState
  fault : Byte
  echo : Byte
  timeoutDue : Bool
  deriving DecidableEq, Repr

/-- The drive bus controller. A STOP slot that is pending holds a first-cause code or none. `keepaliveDue` is the
model's own: the countdown has reached its keepalive and it is not yet written (entry 2). -/
structure Bus where
  stopSlot : Option (Option Cause)
  slots : Quad (Option Setpoint)
  flight : Option Flight
  failures : Nat
  countdown : Nat
  keepaliveDue : Bool
  lastClass : TimeoutClass
  drives : Quad Drive
  deriving DecidableEq, Repr

/-! ## Answers and notices (chapters 10 and 11) -/

/-- The statuses of Table 11-10. -/
inductive Status where
  | ok
  | clamped
  | deferred
  | aborted
  | unknownKind
  | badLength
  | outOfRange
  | notPermitted
  | wrongMode
  | busy
  | noRecord
  | tableFull
  | locked
  | inUse
  | conflict
  | targetBlocked
  | routeBlocked
  | queueFull
  | windHold
  | haltActive
  | poseLost
  | estop
  | notAtRest
  deriving DecidableEq, Repr

/-- A CLOSE: its status and two detail bytes (R180). -/
structure Close where
  status : Status
  detail1 : Nat
  detail2 : Nat
  deriving DecidableEq, Repr

/-- An ITEM: the record types 1 to 4 of Table 11-2. -/
inductive Item where
  | setting (id : Nat) (index : Nat) (value : Vec3)
  | zone (record : Zone)
  | mark (record : Mark)
  | move (record : Entry) (position : Nat)
  deriving DecidableEq, Repr

/-- An answer: its ITEMs and its CLOSE, each carrying the request's tag (R172). -/
structure Answer where
  tag : Byte
  items : List Item
  close : Close
  deriving DecidableEq, Repr

/-- Table 5-2. -/
inductive ModeReason where
  | commit
  | unrig
  | run
  | endTravel
  | stop
  | stickTaken
  | stickReleased
  | wind
  | park
  | unpark
  | halt
  | escalated
  | stopped
  | cleared
  deriving DecidableEq, Repr

/-- The two reasons of a HALT notice (R107). -/
inductive HaltReason where
  | raised
  | cleared
  deriving DecidableEq, Repr

/-- Table 2-3. -/
inductive ZoneReason where
  | added
  | activated
  | edited
  | request
  | lapsed
  | overdue
  | resolved
  | locked
  | unlocked
  | fixed
  deriving DecidableEq, Repr

/-- Table 3-4. -/
inductive MarkReason where
  | set
  | replaced
  | retired
  | blocked
  | cleared
  deriving DecidableEq, Repr

/-- Table 4-4. -/
inductive MoveReason where
  | added
  | armed
  | started
  | dropped
  | lookaheadBlocked
  | arrived
  | completed
  | stalled
  | returned
  | cancelled
  deriving DecidableEq, Repr

/-- Why a move was dropped (R86): a route failure carries the zone and the code of R69. -/
inductive Failure where
  | targetBlocked
  | routeBlocked (zone : Nat) (code : Nat)
  | markRetired
  deriving DecidableEq, Repr

/-- Table 7-5. -/
inductive LaneReason where
  | setting
  | checkStarted
  | checkPassed
  | checkFailed
  | aborted
  | stale
  | restored
  deriving DecidableEq, Repr

/-- The reasons of a WIND notice (R155). -/
inductive WindReason where
  | set
  | cleared
  | unrig
  deriving DecidableEq, Repr

/-- The reasons of a QUEUE notice (R86). -/
inductive QueueReason where
  | cleared
  | unrig
  deriving DecidableEq, Repr

/-- A notice, its content formed at the event that raised it (R173, Table 11-6). A move entry that was removed has no
position. -/
inductive Notice where
  | mode (reason : ModeReason) (new previous : Mode) (queueReason : Option EndReason) (causes : List Cause)
      (first : Option Report) (poseLost : Bool)
  | halt (reason : HaltReason) (added : Option Report) (causes : List Cause) (first : Option Report)
      (poseLost : Bool)
  | zone (reason : ZoneReason) (record : Zone)
  | mark (reason : MarkReason) (previous : Option MarkState) (record : Mark)
  | move (reason : MoveReason) (failure : Option Failure) (queueCount : Nat) (record : Entry)
      (position : Option Nat)
  | lane (reason : LaneReason) (lane : Lane) (new previous : LaneState) (mapping : Option CellName) (words : Nat)
  | wind (reason : WindReason) (hold : Bool) (speed cap full stop : Int)
  | queue (reason : QueueReason) (removed : Nat)
  deriving DecidableEq, Repr

/-! ## Request ports (chapter 10) -/

/-- A completed frame: KIND, TAG and BODY; LEN is the body's length (R167). -/
structure RawFrame where
  kind : Byte
  tag : Byte
  body : List Byte
  deriving DecidableEq, Repr

/-- The receive state with the bytes kept (R168). In BODY, `due` counts the bytes still due. -/
inductive Receiver where
  | hunting
  | len
  | kind (len : Nat)
  | tag (len : Nat) (kind : Byte)
  | body (kind tag : Byte) (due : Nat) (got : List Byte)
  | crcLow (frame : RawFrame)
  | crcHigh (frame : RawFrame) (low : Byte)
  deriving DecidableEq, Repr

/-- The filter of a ZONE_LIST (R44). -/
inductive ZoneFilter where
  | all
  | kind (kind : ZoneKind)
  | state (state : ZoneState)
  deriving DecidableEq, Repr

/-- The filter of a MARK_LIST (R59). -/
inductive MarkFilter where
  | all
  | state (state : MarkState)
  deriving DecidableEq, Repr

/-- The work in service at a port (R170), a listing with its filter and its cursor. The cursor of a queue listing is
the order of addition of the entry last listed, 0 before the first. -/
inductive Work where
  | zones (filter : ZoneFilter) (cursor : Nat)
  | marks (filter : MarkFilter) (cursor : Option Nat)
  | queue (cursor : Nat)
  | laneCheck (lane : Lane)
  deriving DecidableEq, Repr

/-- A request in service: the work, the tag and the count of ITEMs sent. -/
structure Service where
  work : Work
  tag : Byte
  sent : Nat
  deriving DecidableEq, Repr

/-- One request port (R178). `completed` holds frames handed to the request stage and not yet taken there, `passed`
the request handed to its owner and not yet taken there, `line` the bytes of the frame on the transmit line. -/
structure PortRec where
  receiver : Receiver
  completed : List RawFrame
  passed : Option Instr
  service : Option Service
  answers : List Answer
  notices : List Notice
  overflow : Bool
  interval : Nat
  countdown : Nat
  due : Bool
  line : Option (List Byte)
  deriving DecidableEq, Repr

/-! ## Hand-offs between the blocks -/

/-- A set-point on its way to its slot (R123, R158). -/
structure SlotWrite where
  winch : Winch
  content : Setpoint
  deriving DecidableEq, Repr

/-- A raise of STOP on its way to the drive bus controller (R159): that of an entry to HALTED/STOPPED (R102 to R104), or
one more in it (R105). -/
inductive Raise where
  | entry
  | again
  deriving DecidableEq, Repr

/-- What carrier control hands the move queue (R72). Travel begun carries its number. -/
inductive TravelHand where
  | begun (number : Nat)
  | ended
  deriving DecidableEq, Repr

/-- End travel, with the number of the travel begun taken last and its reason (R72). -/
structure EndHand where
  number : Nat
  reason : EndReason
  deriving DecidableEq, Repr

/-- What the mark table hands the move queue (Table 3-3). -/
inductive MarkReport where
  | retired (mark : Nat)
  | replaced (mark : Nat)
  | changed (marks : List (Nat × MarkState))
  deriving DecidableEq, Repr

/-- The hand-offs that stand: handed by one block, not yet taken by the other. Each list is in the order handed. -/
structure Hands where
  stepZone : Option StepResult
  stepQueue : Option StepResult
  stepCarrier : Option StepResult
  stepDrum : Option StepResult
  writes : List SlotWrite
  raises : List Raise
  freeze : Bool
  faults : List Report
  windChanges : List Bool
  travel : List TravelHand
  ends : List EndHand
  changes : List (List Nat)
  markReports : List MarkReport
  deriving DecidableEq, Repr

/-! ## The part -/

/-- The whole state. `pending` is the model's own: the commands waiting, first in first out. -/
structure State where
  settings : Settings
  zones : List Zone
  refBox : Option Box
  marks : List Mark
  queue : MoveQueue
  carrier : Carrier
  path : Option Path
  tension : Tension
  drums : Quad Drum
  wind : Wind
  bus : Bus
  rig : PortRec
  safety : PortRec
  periods : Nat
  estop : Bool
  hands : Hands
  pending : List Instr
  deriving DecidableEq, Repr

/-- The ways a step can fault: none. The manual names no event that stops the part; a bad request is answered, a bad
frame is discarded and a fault of the rig is a halt, each a next state. Safe: nothing is left out by it. -/
inductive Fault where
  deriving DecidableEq, Repr

/-- The ways a step can be refused. -/
inductive Refusal where
  /-- A command that has no meaning yet; raised by an arm of `exec` alone. Safe: the model stops where the part goes
  on. No arm raises it. -/
  | notModelled (mnemonic : String)
  deriving DecidableEq, Repr

/-! ## Reset values -/

/-- R6: the Default columns of Tables 1-2 and 1-3. -/
def Settings.reset : Settings where
  anchor := .all ⟨0, 0, 0⟩
  lenMin := .all 1000
  lenMax := .all 250000
  drumScale := .all 0
  lineSpeed := .all 500
  speedCap := 2000
  accelRate := 10
  stopRate := 40
  trackTol := 100
  laneMap := .all none
  laneFormat := .all .offset
  laneGain := .all 0
  laneScale := .all 256
  lanePattern := .all (0x5555, 0xAAAA)
  filterMode := .builtIn
  filterCoeff := List.replicate 12 0
  busRate := 1000
  busTxBase := 0x100
  acceptCode := 0x180
  acceptMask := 0x7FC
  windCmPerPulse := 0
  capTrim := 100
  tensionSlack := .all 500
  tensionWarn := .all 20000
  tensionMax := .all 30000
  disagreeTol := 2000
  windFull := 800
  windStop := 1400
  derateFloor := 500

/-- R66, R72, R88. -/
def MoveQueue.reset : MoveQueue :=
  { entries := [], nextId := 1, travelFlag := false, lastBegun := 0, nextSerial := 1 }

/-- R89: the last column of Table 5-1. -/
def Carrier.reset : Carrier where
  mode := .offline
  causes := []
  first := none
  poseLost := false
  stickOwned := false
  steer := ⟨0, 0, 0⟩
  steerAge := 50
  windMirror := false
  lastAtRest := true
  begun := 0

/-- R144: a lane after hard reset. -/
def LaneRec.reset : LaneRec where
  state := .unchecked
  history := []
  samples := 0
  latest := 0
  valid := false
  watch := false
  check := none

/-- R144: a winch after hard reset. -/
def WinchRec.reset : WinchRec :=
  { tension := 0, flag := .none, overload := 0, slack := 0, cellA := 0, cellB := 0 }

/-- R144: Table 7-1. -/
def Tension.reset : Tension := { lanes := .all .reset, winches := .all .reset, cap := 2000 }

/-- R145: a drum counter after a hard reset at which its lines stand at `levels`. -/
def Drum.reset (levels : Levels) : Drum :=
  { levels := levels, count := 0, countRef := none, lengthRef := none, illegal := 0, exceed := 0 }

/-- Table 8-3. -/
def Wind.reset : Wind := { pulses := 0, speed := 0, cap := 2000, hold := false }

/-- R156: a drive record after hard reset. -/
def Drive.reset : Drive :=
  { statusAge := none, watchAge := 0, state := none, fault := 0, echo := 0, timeoutDue := false }

/-- R156: Table 9-1. -/
def Bus.reset : Bus where
  stopSlot := none
  slots := .all none
  flight := none
  failures := 0
  countdown := 0
  keepaliveDue := false
  lastClass := .short
  drives := .all .reset

/-- R178. -/
def PortRec.reset : PortRec where
  receiver := .hunting
  completed := []
  passed := none
  service := none
  answers := []
  notices := []
  overflow := false
  interval := 25
  countdown := 25
  due := false
  line := none

/-- No hand-off stands. -/
def Hands.none : Hands where
  stepZone := Option.none
  stepQueue := Option.none
  stepCarrier := Option.none
  stepDrum := Option.none
  writes := []
  raises := []
  freeze := false
  faults := []
  windChanges := []
  travel := []
  ends := []
  changes := []
  markReports := []

/-- The part after a hard reset at which the input lines stand as given, no command waiting. -/
def State.resetWith (lines : ResetLines) : State where
  settings := .reset
  zones := []
  refBox := none
  marks := []
  queue := .reset
  carrier := .reset
  path := none
  tension := .reset
  drums := lines.encoders.map Drum.reset
  wind := .reset
  bus := .reset
  rig := .reset
  safety := .reset
  periods := 0
  estop := lines.estop
  hands := .none
  pending := []

/-- The part right after hard reset. DESIGN CHOICE (entry 5): the levels on the encoder lines are 0 and the e-stop line
is inactive; both are inputs. -/
def State.reset : State := State.resetWith { encoders := .all ⟨false, false⟩, estop := false }

end Sys2Proof.Machine
end

