-- ==== Sys2Proof/WellFormed.lean ====
section
/-! DEFINITION. Which commands can arrive: each request field fits its place in the body of Table 11-1, and a frame on
the drive bus has at most eight data bytes. The owners' own range checks are not here: a well-formed request may be
refused. -/

namespace Sys2Proof

/-- The value fits an unsigned field of 1 byte. -/
def fitsU8 (n : Nat) : Bool := n < 256

/-- The value fits an unsigned field of 2 bytes. -/
def fitsU16 (n : Nat) : Bool := n < 65536

/-- The value fits a signed field of 2 bytes. -/
def fitsI16 (n : Int) : Bool := decide (-32768 ≤ n) && decide (n ≤ 32767)

/-- The value fits a signed field of 4 bytes. -/
def fitsI32 (n : Int) : Bool := decide (-2147483648 ≤ n) && decide (n ≤ 2147483647)

/-- Each coordinate fits an i32 field (chapter 11: a position is three i32 fields). -/
def fitsPosition (v : Vec3) : Bool := fitsI32 v.x && fitsI32 v.y && fitsI32 v.z

/-- Each component fits an i16 field (STEER). -/
def fitsVelocity (v : Vec3) : Bool := fitsI16 v.x && fitsI16 v.y && fitsI16 v.z

/-- A frame on the bus carries at most 8 data bytes. -/
def CanFrame.fits : CanFrame → Bool
  | .standard _ data => decide (data.length ≤ 8)
  | .extended _ data => decide (data.length ≤ 8)

/-- Each field fits its width in Table 11-1, and the body fits R167's 240 bytes. -/
def Instr.wellFormed : Instr → Bool
  | .zoneLapse zone => decide (1 ≤ zone) && decide (zone ≤ Config.maxZones)
  | .statusReceived frame => frame.fits
  | .set _ _ id index value => fitsU8 id && fitsU8 index && fitsPosition value
  | .get _ _ id index => fitsU8 id && fitsU8 index
  | .rigCommit _ _ pose => fitsPosition pose
  | .laneCheck _ _ lane => fitsU8 lane
  | .zoneAdd _ _ b =>
      fitsU8 b.kind && fitsPosition b.least && fitsPosition b.greatest && fitsU16 b.margin && fitsU16 b.lifetime
  | .zoneEdit _ _ b =>
      fitsU8 b.zone && fitsPosition b.least && fitsPosition b.greatest && fitsU16 b.margin && fitsU8 b.instruction
        && fitsU16 b.lifetime
  | .zoneRetire _ _ zone => fitsU8 zone
  | .zoneLock _ _ zone => fitsU8 zone
  | .zoneUnlock _ _ zone => fitsU8 zone
  | .zoneFix _ _ zone => fitsU8 zone
  | .zoneRead _ _ zone => fitsU8 zone
  | .zoneList _ _ filter code => fitsU8 filter && fitsU8 code
  | .markSet _ _ b =>
      fitsU8 b.mark && fitsPosition b.point && fitsU16 b.speedCap
        && decide (16 + b.label.length ≤ Config.maxBody)
  | .markHere _ _ b => fitsU8 b.mark && fitsU16 b.speedCap && decide (4 + b.label.length ≤ Config.maxBody)
  | .markRetire _ _ mark => fitsU8 mark
  | .markRead _ _ mark => fitsU8 mark
  | .markList _ _ filter => fitsU8 filter
  | .moveAdd _ _ b =>
      fitsU8 b.kind && fitsU8 b.mark && fitsPosition b.point && fitsU16 b.speedCap && fitsU16 b.tolerance
        && fitsU16 b.dwell && fitsU8 b.release
  | .moveCancel _ _ id => fitsU16 id
  | .steer _ _ velocity => fitsVelocity velocity
  | .hardReset _ | .servoStep | .setpointWrite | .zoneStepResult | .queueStepResult | .dwellEnd
  | .carrierStepResult | .drumStepResult | .zoneSecondTick | .drumSecondTick | .windSecondTick | .windHoldChange
  | .anemometerPulse | .encoderTransition _ _ | .sampleArrival _ _ | .silenceExpiry _ | .cueEdge
  | .estopActive _ | .faultReport | .freeze | .raiseStop | .drivePeriodExpiry | .statusTimeout _ | .keepalive
  | .transmitBegin | .transmissionEnd _ | .travelBegun | .travelEnded | .endTravel | .changeInForceReport
  | .retirementReport | .replacementReport | .stateChangeReport | .receiveCharacter _ _ _ | .receiveGap _
  | .requestFrame _ | .portLineFree _ | .portPeriodExpiry _ | .telemetryDue _ | .unrig _ _ | .queueClear _ _
  | .queueList _ _ | .run _ _ | .stop _ _ | .takeStick _ _ | .releaseStick _ _ | .park _ _ | .unpark _ _
  | .halt _ _ | .clearHalt _ _ | .abort _ _ => true

end Sys2Proof
end

