-- ==== Sys2Proof/Decode.lean ====
section
/-! DEFINITION. From frames to commands. No row of spec/opcode_table.json gives bits, so `decodeTableWord` reads none.
Table 11-1 gives the body of every request: `decodeRequest` reads one, `encodeRequest` writes one. -/

namespace Sys2Proof

open Sys2Proof.Machine

/-- The command that a word spells by the table's bits: the table gives no row any bits. -/
def decodeTableWord (_nbits _w : Nat) : Option Instr := none

/-! ## Little-endian fields (R179) -/

def byteAt (l : List Byte) (k : Nat) : Byte := l.getD k 0

def u8At (l : List Byte) (k : Nat) : Nat := (byteAt l k).toNat

def u16At (l : List Byte) (k : Nat) : Nat := u8At l k + 256 * u8At l (k + 1)

def i16At (l : List Byte) (k : Nat) : Int := (byteAt l (k + 1) ++ byteAt l k).toInt

def i32At (l : List Byte) (k : Nat) : Int :=
  (byteAt l (k + 3) ++ byteAt l (k + 2) ++ byteAt l (k + 1) ++ byteAt l k).toInt

def positionAt (l : List Byte) (k : Nat) : Vec3 := ⟨i32At l k, i32At l (k + 4), i32At l (k + 8)⟩

def putU8 (n : Nat) : List Byte := [BitVec.ofNat 8 n]

def putU16 (n : Nat) : List Byte := [BitVec.ofNat 8 n, BitVec.ofNat 8 (n / 256)]

/-- The two bytes of a 16-bit word, low byte first. -/
def put16 (w : BitVec 16) : List Byte := [w.extractLsb' 0 8, w.extractLsb' 8 8]

/-- The four bytes of a 32-bit word, low byte first. -/
def put32 (w : BitVec 32) : List Byte :=
  [w.extractLsb' 0 8, w.extractLsb' 8 8, w.extractLsb' 16 8, w.extractLsb' 24 8]

def putU32 (n : Nat) : List Byte := put32 (BitVec.ofNat 32 n)

def putI16 (n : Int) : List Byte := put16 (BitVec.ofInt 16 n)

def putI32 (n : Int) : List Byte := put32 (BitVec.ofInt 32 n)

def putPosition (v : Vec3) : List Byte := putI32 v.x ++ (putI32 v.y ++ putI32 v.z)

/-! ## Requests (Tables 11-1 and 11-9) -/

/-- What the request stage finds in a completed frame (R169 steps 2, 3 and 5). -/
inductive Parsed where
  | unknownKind
  | badLength
  | request (c : Instr)
  deriving DecidableEq, Repr

/-- A request whose body length is fixed. -/
def fixedLength (body : List Byte) (len : Nat) (c : Instr) : Parsed :=
  if body.length = len then .request c else .badLength

/-- MARK_SET: 16 + count bytes, the count at offset 15 (R169 step 3). -/
def decodeMarkSet (p : Port) (tag : Byte) (b : List Byte) : Parsed :=
  if b.length < 16 then .badLength
  else if b.length = 16 + u8At b 15 then
    .request (.markSet p tag
      { mark := u8At b 0, point := positionAt b 1, speedCap := u16At b 13, label := b.drop 16 })
  else .badLength

/-- MARK_HERE: 4 + count bytes, the count at offset 3 (R169 step 3). -/
def decodeMarkHere (p : Port) (tag : Byte) (b : List Byte) : Parsed :=
  if b.length < 4 then .badLength
  else if b.length = 4 + u8At b 3 then
    .request (.markHere p tag { mark := u8At b 0, speedCap := u16At b 1, label := b.drop 4 })
  else .badLength

/-- Reads a frame completed at port `p`: the kinds of Table 11-9, the bodies of Table 11-1. -/
def decodeRequest (p : Port) (f : RawFrame) : Parsed :=
  let b := f.body
  let t := f.tag
  match f.kind.toNat with
  | 0x10 => fixedLength b 14 (.set p t (u8At b 0) (u8At b 1) ⟨i32At b 2, i32At b 6, i32At b 10⟩)
  | 0x11 => fixedLength b 2 (.get p t (u8At b 0) (u8At b 1))
  | 0x12 => fixedLength b 12 (.rigCommit p t (positionAt b 0))
  | 0x13 => fixedLength b 0 (.unrig p t)
  | 0x14 => fixedLength b 1 (.laneCheck p t (u8At b 0))
  | 0x20 =>
      fixedLength b 29 (.zoneAdd p t
        { kind := u8At b 0, least := positionAt b 1, greatest := positionAt b 13, margin := u16At b 25,
          lifetime := u16At b 27 })
  | 0x21 =>
      fixedLength b 30 (.zoneEdit p t
        { zone := u8At b 0, least := positionAt b 1, greatest := positionAt b 13, margin := u16At b 25,
          instruction := u8At b 27, lifetime := u16At b 28 })
  | 0x22 => fixedLength b 1 (.zoneRetire p t (u8At b 0))
  | 0x23 => fixedLength b 1 (.zoneLock p t (u8At b 0))
  | 0x24 => fixedLength b 1 (.zoneUnlock p t (u8At b 0))
  | 0x25 => fixedLength b 1 (.zoneFix p t (u8At b 0))
  | 0x26 => fixedLength b 1 (.zoneRead p t (u8At b 0))
  | 0x27 => fixedLength b 2 (.zoneList p t (u8At b 0) (u8At b 1))
  | 0x30 => decodeMarkSet p t b
  | 0x31 => decodeMarkHere p t b
  | 0x32 => fixedLength b 1 (.markRetire p t (u8At b 0))
  | 0x33 => fixedLength b 1 (.markRead p t (u8At b 0))
  | 0x34 => fixedLength b 1 (.markList p t (u8At b 0))
  | 0x40 =>
      fixedLength b 21 (.moveAdd p t
        { kind := u8At b 0, mark := u8At b 1, point := positionAt b 2, speedCap := u16At b 14,
          tolerance := u16At b 16, dwell := u16At b 18, release := u8At b 20 })
  | 0x41 => fixedLength b 2 (.moveCancel p t (u16At b 0))
  | 0x42 => fixedLength b 0 (.queueClear p t)
  | 0x43 => fixedLength b 0 (.queueList p t)
  | 0x44 => fixedLength b 0 (.run p t)
  | 0x45 => fixedLength b 0 (.stop p t)
  | 0x50 => fixedLength b 0 (.takeStick p t)
  | 0x51 => fixedLength b 6 (.steer p t ⟨i16At b 0, i16At b 2, i16At b 4⟩)
  | 0x52 => fixedLength b 0 (.releaseStick p t)
  | 0x58 => fixedLength b 0 (.park p t)
  | 0x59 => fixedLength b 0 (.unpark p t)
  | 0x5A => fixedLength b 0 (.halt p t)
  | 0x5B => fixedLength b 0 (.clearHalt p t)
  | 0x60 => fixedLength b 0 (.abort p t)
  | _ => .unknownKind

/-- The port and the frame of a request; none for a command that is no request. -/
def encodeRequest : Instr → Option (Port × RawFrame)
  | .set p t id index v => some (p, ⟨0x10, t, putU8 id ++ (putU8 index ++ putPosition v)⟩)
  | .get p t id index => some (p, ⟨0x11, t, putU8 id ++ putU8 index⟩)
  | .rigCommit p t pose => some (p, ⟨0x12, t, putPosition pose⟩)
  | .unrig p t => some (p, ⟨0x13, t, []⟩)
  | .laneCheck p t lane => some (p, ⟨0x14, t, putU8 lane⟩)
  | .zoneAdd p t b =>
      some (p, ⟨0x20, t, putU8 b.kind ++ (putPosition b.least ++ (putPosition b.greatest
        ++ (putU16 b.margin ++ putU16 b.lifetime)))⟩)
  | .zoneEdit p t b =>
      some (p, ⟨0x21, t, putU8 b.zone ++ (putPosition b.least ++ (putPosition b.greatest
        ++ (putU16 b.margin ++ (putU8 b.instruction ++ putU16 b.lifetime))))⟩)
  | .zoneRetire p t zone => some (p, ⟨0x22, t, putU8 zone⟩)
  | .zoneLock p t zone => some (p, ⟨0x23, t, putU8 zone⟩)
  | .zoneUnlock p t zone => some (p, ⟨0x24, t, putU8 zone⟩)
  | .zoneFix p t zone => some (p, ⟨0x25, t, putU8 zone⟩)
  | .zoneRead p t zone => some (p, ⟨0x26, t, putU8 zone⟩)
  | .zoneList p t filter code => some (p, ⟨0x27, t, putU8 filter ++ putU8 code⟩)
  | .markSet p t b =>
      some (p, ⟨0x30, t, putU8 b.mark ++ (putPosition b.point ++ (putU16 b.speedCap
        ++ (putU8 b.label.length ++ b.label)))⟩)
  | .markHere p t b =>
      some (p, ⟨0x31, t, putU8 b.mark ++ (putU16 b.speedCap ++ (putU8 b.label.length ++ b.label))⟩)
  | .markRetire p t mark => some (p, ⟨0x32, t, putU8 mark⟩)
  | .markRead p t mark => some (p, ⟨0x33, t, putU8 mark⟩)
  | .markList p t filter => some (p, ⟨0x34, t, putU8 filter⟩)
  | .moveAdd p t b =>
      some (p, ⟨0x40, t, putU8 b.kind ++ (putU8 b.mark ++ (putPosition b.point ++ (putU16 b.speedCap
        ++ (putU16 b.tolerance ++ (putU16 b.dwell ++ putU8 b.release)))))⟩)
  | .moveCancel p t id => some (p, ⟨0x41, t, putU16 id⟩)
  | .queueClear p t => some (p, ⟨0x42, t, []⟩)
  | .queueList p t => some (p, ⟨0x43, t, []⟩)
  | .run p t => some (p, ⟨0x44, t, []⟩)
  | .stop p t => some (p, ⟨0x45, t, []⟩)
  | .takeStick p t => some (p, ⟨0x50, t, []⟩)
  | .steer p t v => some (p, ⟨0x51, t, putI16 v.x ++ (putI16 v.y ++ putI16 v.z)⟩)
  | .releaseStick p t => some (p, ⟨0x52, t, []⟩)
  | .park p t => some (p, ⟨0x58, t, []⟩)
  | .unpark p t => some (p, ⟨0x59, t, []⟩)
  | .halt p t => some (p, ⟨0x5A, t, []⟩)
  | .clearHalt p t => some (p, ⟨0x5B, t, []⟩)
  | .abort p t => some (p, ⟨0x60, t, []⟩)
  | .hardReset _ | .servoStep | .setpointWrite | .zoneStepResult | .queueStepResult | .dwellEnd
  | .carrierStepResult | .drumStepResult | .zoneSecondTick | .zoneLapse _ | .drumSecondTick | .windSecondTick
  | .windHoldChange | .anemometerPulse | .encoderTransition _ _ | .sampleArrival _ _ | .silenceExpiry _ | .cueEdge
  | .estopActive _ | .faultReport | .freeze | .raiseStop | .drivePeriodExpiry | .statusTimeout _ | .keepalive
  | .transmitBegin | .transmissionEnd _ | .statusReceived _ | .travelBegun | .travelEnded | .endTravel
  | .changeInForceReport | .retirementReport | .replacementReport | .stateChangeReport | .receiveCharacter _ _ _
  | .receiveGap _ | .requestFrame _ | .portLineFree _ | .portPeriodExpiry _ | .telemetryDue _ => none

/-- The port of a request, none for a command that is no request. -/
def Instr.port? (c : Instr) : Option Port := (encodeRequest c).map Prod.fst

end Sys2Proof
end

