-- ==== Sys2Proof/Machine/Arith.lean ====
section
/-! DEFINITION. The integer arithmetic that the chapters name (Conventions, "Integer arithmetic"; R4, R125, R127):
every quantity is an exact integer. -/

namespace Sys2Proof.Machine

/-- The greatest number below `r + 2 ^ bits` that passes, found bit by bit from the top. It is the greatest number
that passes whenever the test is passed by every smaller number too. -/
def greatest (passes : Nat → Bool) : (bits : Nat) → (r : Nat) → Nat
  | 0, r => r
  | k + 1, r => if passes (r + 2 ^ k) then greatest passes k (r + 2 ^ k) else greatest passes k r

/-- floor-sqrt: the greatest integer whose square is at most `n`. -/
def floorSqrt (n : Nat) : Nat := greatest (fun r => decide (r * r ≤ n)) (n.log2 / 2 + 1) 0

/-- ceil-sqrt: the least integer whose square is at least `n`. -/
def ceilSqrt (n : Nat) : Nat :=
  let r := floorSqrt n
  if r * r = n then r else r + 1

/-- ceil of a quotient of numbers. -/
def ceilDiv (a b : Nat) : Nat := (a + b - 1) / b

namespace Vec

def zero : Vec3 := ⟨0, 0, 0⟩

def add (a b : Vec3) : Vec3 := ⟨a.x + b.x, a.y + b.y, a.z + b.z⟩

def sub (a b : Vec3) : Vec3 := ⟨a.x - b.x, a.y - b.y, a.z - b.z⟩

def scale (k : Int) (a : Vec3) : Vec3 := ⟨k * a.x, k * a.y, k * a.z⟩

def map (f : Int → Int) (a : Vec3) : Vec3 := ⟨f a.x, f a.y, f a.z⟩

def map2 (f : Int → Int → Int) (a b : Vec3) : Vec3 := ⟨f a.x b.x, f a.y b.y, f a.z b.z⟩

/-- |v|², the sum of the squares of the components. -/
def sq (a : Vec3) : Int := a.x * a.x + a.y * a.y + a.z * a.z

/-- Millimetres to micrometres (R2). -/
def micro (a : Vec3) : Vec3 := scale 1000 a

/-- A test on each component. -/
def all (p : Int → Bool) (a : Vec3) : Bool := p a.x && p a.y && p a.z

end Vec

/-- R4: the line length from a squared distance, the distance rounded to the nearest micrometre. -/
def roundedRoot (s : Int) : Int :=
  let r : Int := floorSqrt s.toNat
  if s - r * r > r then r + 1 else r

/-- R4 step 1: the squared distance from an anchor (mm) to a pose (µm). -/
def squaredDistance (anchor pose : Vec3) : Int := Vec.sq (Vec.sub pose (Vec.micro anchor))

/-- R3, R4: the line length of a pose. -/
def lineLength (anchor pose : Vec3) : Int := roundedRoot (squaredDistance anchor pose)

/-- The four line lengths of a pose. -/
def lineLengths (anchors : Quad Vec3) (pose : Vec3) : Quad Int := anchors.map (fun a => lineLength a pose)

/-- R125: the stopping distance D_b(u) in µm of a speed `u ≥ 0` at rate `b`. The product q(q+1) is even. -/
def stopDistance (b u : Int) : Int :=
  let q := u / b
  4 * (q * u - b * (q * (q + 1)) / 2)

/-- The stop point of one axis at position `p` and velocity `v` (R120, R122). -/
def stopPoint (b p v : Int) : Int := p + v.sign * stopDistance b v.natAbs

/-- R122: a component braked at `b`. -/
def brakeComponent (b v : Int) : Int := v.sign * max (v.natAbs - b) 0

/-- A vector scaled to `cap` where it is longer: trunc(component × cap / ceil-sqrt(|v|²)) (R115, R119). -/
def limitMagnitude (cap : Int) (v : Vec3) : Vec3 :=
  if Vec.sq v > cap * cap then
    let r : Int := ceilSqrt (Vec.sq v).toNat
    Vec.map (fun a => (a * cap).tdiv r) v
  else v

end Sys2Proof.Machine
end

