-- ==== Sys2Proof/Machine/Boxes.lean ====
section
/-! DEFINITION. Boxes and zones: meeting and containing (Conventions, "Boxes"), the box in force of a zone (R22), the
line-range test (R5), the in-use test (R34), the mark test (R51) and route vetting (R69, R70). -/

namespace Sys2Proof.Machine

/-- The box that is one point. -/
def Box.point (p : Vec3) : Box := ⟨p, p⟩

/-- The box that spans two points on each axis (R120). -/
def Box.span (p t : Vec3) : Box := ⟨Vec.map2 min p t, Vec.map2 max p t⟩

/-- Two boxes meet when they share a point; touching counts (R22). -/
def Box.meets (a b : Box) : Bool :=
  decide (a.lo.x ≤ b.hi.x) && decide (b.lo.x ≤ a.hi.x) && decide (a.lo.y ≤ b.hi.y) && decide (b.lo.y ≤ a.hi.y)
    && decide (a.lo.z ≤ b.hi.z) && decide (b.lo.z ≤ a.hi.z)

/-- A box contains another; a face counts (R22). `inner` is not empty. -/
def Box.contains (outer inner : Box) : Bool :=
  decide (outer.lo.x ≤ inner.lo.x) && decide (inner.hi.x ≤ outer.hi.x) && decide (outer.lo.y ≤ inner.lo.y)
    && decide (inner.hi.y ≤ outer.hi.y) && decide (outer.lo.z ≤ inner.lo.z) && decide (inner.hi.z ≤ outer.hi.z)

/-- A box contains a point; a face counts (R22). -/
def Box.holds (b : Box) (p : Vec3) : Bool := b.contains (Box.point p)

/-- R22: the expanded box of a keep-out, in µm. -/
def Zone.expanded (z : Zone) : Box :=
  let m : Int := 1000 * (z.margin : Int)
  ⟨Vec.map (fun a => a - m) (Vec.micro z.least), Vec.map (fun a => a + m) (Vec.micro z.greatest)⟩

/-- R22: the shrunk box of a keep-in, in µm. -/
def Zone.shrunk (z : Zone) : Box :=
  let m : Int := 1000 * (z.margin : Int)
  ⟨Vec.map (fun a => a + m) (Vec.micro z.least), Vec.map (fun a => a - m) (Vec.micro z.greatest)⟩

/-- R22, R28: the first axis on which a box is empty. -/
def Box.emptyAxis (b : Box) : Option Nat :=
  if b.lo.x > b.hi.x then some 0
  else if b.lo.y > b.hi.y then some 1
  else if b.lo.z > b.hi.z then some 2
  else none

/-- R23: an ACTIVE keep-out. -/
def Zone.keepsOut (z : Zone) : Bool := z.kind == .keepOut && z.state == .active

/-- R23: an ACTIVE or OVERDUE keep-in. -/
def Zone.keepsIn (z : Zone) : Bool := z.kind == .keepIn && (z.state == .active || z.state == .overdue)

/-- R41: the record is ACTIVE or OVERDUE. -/
def Zone.inForce (z : Zone) : Bool := z.state == .active || z.state == .overdue

/-- Some keep-in in force contains the box. -/
def keptIn (zones : List Zone) (b : Box) : Bool := zones.any (fun z => z.keepsIn && z.shrunk.contains b)

/-- The box meets no keep-out in force. -/
def clearOfKeepOuts (zones : List Zone) (b : Box) : Bool := zones.all (fun z => !(z.keepsOut && z.expanded.meets b))

/-- R121: the clearance check. -/
def clearance (zones : List Zone) (b : Box) : Bool := clearOfKeepOuts zones b && keptIn zones b

/-! ## The line-range test (R5) -/

/-- The largest squared difference on one axis from `a` to the interval. -/
def farSquare (a lo hi : Int) : Int := max ((lo - a) * (lo - a)) ((hi - a) * (hi - a))

/-- The squared difference on one axis from `a` to `a` clamped into the interval. -/
def nearSquare (a lo hi : Int) : Int :=
  let c := if a < lo then lo else if a > hi then hi else a
  (c - a) * (c - a)

/-- R5 for one winch: its anchor in mm, its bounds in mm, and the shrunk box in µm. -/
def lineRangeAt (anchor : Vec3) (lenMin lenMax : Int) (b : Box) : Bool :=
  let a := Vec.micro anchor
  decide (farSquare a.x b.lo.x b.hi.x + farSquare a.y b.lo.y b.hi.y + farSquare a.z b.lo.z b.hi.z
      ≤ (1000 * lenMax) * (1000 * lenMax))
    && decide ((1000 * lenMin) * (1000 * lenMin)
      ≤ nearSquare a.x b.lo.x b.hi.x + nearSquare a.y b.lo.y b.hi.y + nearSquare a.z b.lo.z b.hi.z)

/-- R5: the first winch at which the shrunk box fails. -/
def lineRangeFault (st : Settings) (b : Box) : Option Winch :=
  winches.find? (fun w => !(lineRangeAt (st.anchor.get w) (st.lenMin.get w) (st.lenMax.get w) b))

/-! ## The in-use test (R34) -/

/-- R34: the keep-in alone contains the reference stopping box. There is no reference box while OFFLINE (R24). -/
def inUse (ref : Option Box) (zones : List Zone) (z : Zone) : Bool :=
  match ref with
  | none => false
  | some b =>
      z.keepsIn && z.shrunk.contains b
        && !(zones.any (fun y => y.number != z.number && y.keepsIn && y.shrunk.contains b))

/-! ## The mark test (R51) -/

/-- R51: the state and the blocker of a point in mm. -/
def markTest (zones : List Zone) (point : Vec3) : MarkState × Nat :=
  let p := Vec.micro point
  match zones.find? (fun z => z.keepsOut && z.expanded.holds p) with
  | some z => (.blocked, z.number)
  | none => if zones.any (fun z => z.keepsIn && z.shrunk.holds p) then (.clear, 0) else (.blocked, 0)

/-! ## Route vetting (R69, R70) -/

/-- A fraction with a positive denominator. -/
abbrev Frac := Int × Int

/-- a/b < c/d, by the cross products (R70). -/
def Frac.less (p q : Frac) : Bool := decide (p.1 * q.2 < q.1 * p.2)

/-- R70, one axis of the slab test: none when the segment misses the box on it. -/
def slabAxis (fractions : Option (Frac × Frac)) (p e lo hi : Int) : Option (Frac × Frac) :=
  match fractions with
  | none => none
  | some (enter, exit) =>
      if e = 0 then (if p < lo || p > hi then none else some (enter, exit))
      else
        let axisIn : Frac := if e > 0 then (lo - p, e) else (p - hi, -e)
        let axisOut : Frac := if e > 0 then (hi - p, e) else (p - lo, -e)
        some (if Frac.less enter axisIn then axisIn else enter, if Frac.less axisOut exit then axisOut else exit)

/-- R70: the segment from `p0` to `p1` meets the box. -/
def segmentMeets (p0 p1 : Vec3) (b : Box) : Bool :=
  let e := Vec.sub p1 p0
  let start : Option (Frac × Frac) := some ((0, 1), (1, 1))
  let x := slabAxis start p0.x e.x b.lo.x b.hi.x
  let y := slabAxis x p0.y e.y b.lo.y b.hi.y
  match slabAxis y p0.z e.z b.lo.z b.hi.z with
  | none => false
  | some (enter, exit) => !(Frac.less exit enter)

/-- R69: none when the route passes, otherwise the zone and the code that are reported. -/
def routeFault (zones : List Zone) (p0 p1 : Vec3) : Option (Nat × Nat) :=
  match zones.find? (fun z => z.keepsOut && segmentMeets p0 p1 z.expanded) with
  | some z => some (z.number, 1)
  | none => if zones.any (fun z => z.keepsIn && z.shrunk.holds p0 && z.shrunk.holds p1) then none else some (0, 2)

end Sys2Proof.Machine
end

