-- ==== Sys2Proof/Machine/Operands.lean ====
section
/-! DEFINITION. The checks and clamps on request fields that several requests share (R2, R27, R53, R67). -/

namespace Sys2Proof.Machine

/-- R2: the axis of the first coordinate out of the frame ranges. -/
def positionFault (p : Vec3) : Option Nat :=
  if p.x < -100000 || p.x > 100000 then some 0
  else if p.y < -100000 || p.y > 100000 then some 1
  else if p.z < 0 || p.z > 80000 then some 2
  else none

/-- R27 steps 3 and 4, R31 step 4: the sub-code of the first fault of an extent. -/
def extentFault (least greatest : Vec3) : Option Nat :=
  match positionFault least with
  | some axis => some axis
  | none =>
      match positionFault greatest with
      | some axis => some axis
      | none =>
          if least.x > greatest.x then some 3
          else if least.y > greatest.y then some 4
          else if least.z > greatest.z then some 5
          else none

/-- R27 step 7. -/
def clampMargin (margin : Nat) : Nat := min margin Config.maxMargin

/-- A lifetime field: 0 means absent (R179). -/
def lifetimeOf (seconds : Nat) : Option Nat := if seconds = 0 then none else some seconds

/-- R53 step 5, R67: a speed cap of 0 is absent, 1 to 99 becomes 100, one above SPEED_CAP becomes SPEED_CAP. -/
def clampSpeedCap (speedCap : Int) (cap : Nat) : Option Nat :=
  if cap = 0 then none else some (min (max cap 100) speedCap.toNat)

/-- The clamp changed the speed cap. -/
def speedCapClamped (speedCap : Int) (cap : Nat) : Bool := cap != 0 && clampSpeedCap speedCap cap != some cap

/-- R53 steps 3 and 4: the sub-code of the first fault of a label. -/
def labelFault (label : List Byte) : Option Nat :=
  if label.length > Config.maxLabel then some 6
  else (label.findIdx? (fun b => decide (b.toNat < 0x20) || decide (b.toNat > 0x7E))).map (fun i => 0x10 + i)

/-- R55: one coordinate of a pose to the nearest millimetre, halves away from zero. -/
def roundToMm (um : Int) : Int := um.sign * ((um.natAbs + 500) / 1000 : Nat)

/-- A status that is CLAMPED when a value was clamped and OK otherwise. -/
def clampStatus (clamped : Bool) : Status := if clamped then .clamped else .ok

end Sys2Proof.Machine
end

