-- ==== Sys2Proof/Machine/Flags.lean ====
section
/-! DEFINITION. The conditions that the rules read off the state: rigged, the mode classes, fresh cells, the class of
a cause, and the class of a timeout. -/

namespace Sys2Proof.Machine

/-- R89: every mode other than OFFLINE. -/
def State.rigged (s : State) : Bool := s.carrier.mode != .offline

/-- PARKED or HALTED/STOPPED: the modes that send keepalives (Table 9-2). -/
def Mode.keepsBrakes : Mode → Bool
  | .parked => true
  | .halted .stopped => true
  | _ => false

/-- R160: the modes in which no brake-clear set-point is begun. -/
def Mode.discardsSetpoints (m : Mode) : Bool := m == .offline || m.keepsBrakes

/-- The mode is HALTED, in either sub-state. -/
def Mode.isHalted : Mode → Bool
  | .halted _ => true
  | _ => false

/-- Table 9-2: the timeout class of a rigged mode. -/
def Mode.timeoutClass (m : Mode) : TimeoutClass := if m.keepsBrakes then .long else .short

/-- Table 9-2: the watch age limit of a class. -/
def TimeoutClass.limit : TimeoutClass → Nat
  | .short => Config.shortLimit
  | .long => Config.longLimit

/-- Table 5-4: TRACKING, DRIVE_FAULT and LINK_LOST are immediate, the others controlled. -/
def Cause.immediate : Cause → Bool
  | .tracking => true
  | .driveFault => true
  | .linkLost => true
  | _ => false

/-- Every component of a velocity is zero. -/
def atRest (v : Vec3) : Bool := v == Vec.zero

/-- R129: a lane that makes its cell fresh: GOOD with a valid latest output. -/
def LaneRec.fresh (l : LaneRec) : Bool := l.state == .good && l.valid

/-- R129: the cell has a fresh cell lane. -/
def cellFresh (st : Settings) (t : Tension) (w : Winch) (c : Cell) : Bool :=
  lanes.any (fun l => st.laneMap.get l == some ⟨w, c⟩ && (t.lanes.get l).fresh)

/-- R108: some cell of the winch is fresh. -/
def winchFresh (st : Settings) (t : Tension) (w : Winch) : Bool := cellFresh st t w .a || cellFresh st t w .b

/-- R92, R73: the stopping box of the most recent step result lies in some keep-in. -/
def State.boxKeptIn (s : State) : Bool :=
  match s.path with
  | none => false
  | some p => keptIn s.zones p.box

/-- The head of the queue while it is RUNNING, with its bound (R112). -/
def MoveQueue.running (q : MoveQueue) : Option (Entry × Bound) :=
  match q.entries with
  | [] => none
  | e :: _ => if e.state == .running then e.bound.map (fun b => (e, b)) else none

/-- The entry directly behind a RUNNING or DWELLING head is a place of its own (R76). -/
def Entry.leads (e : Entry) : Bool := e.state == .running || e.state == .dwelling

end Sys2Proof.Machine
end

