-- ==== Sys2Proof/Machine/Ops.lean ====
section
/-! DEFINITION. The named operations that the meanings share: the ports' records, answers, notices, hand-offs between
blocks, and the change of mode with its notice. -/

namespace Sys2Proof.Machine

/-- What exec answers: every event goes on to a next state. -/
abbrev Result := Host.Outcome State Fault Refusal

/-! ## Ports -/

def State.port (s : State) : Port → PortRec
  | .rig => s.rig
  | .safety => s.safety

def State.setPort (s : State) (p : Port) (r : PortRec) : State :=
  match p with
  | .rig => { s with rig := r }
  | .safety => { s with safety := r }

/-- R172: an answer joins the tail of the answer queue of the port whose request it answers. -/
def State.answer (s : State) (p : Port) (a : Answer) : State :=
  s.setPort p { s.port p with answers := (s.port p).answers ++ [a] }

/-- An answer that is a CLOSE alone. -/
def State.close (s : State) (p : Port) (tag : Byte) (status : Status) (detail1 detail2 : Nat) : State :=
  s.answer p { tag := tag, items := [], close := ⟨status, detail1, detail2⟩ }

/-- An answer of one ITEM and a CLOSE. -/
def State.closeItem (s : State) (p : Port) (tag : Byte) (item : Item) (status : Status) (detail1 detail2 : Nat) : State :=
  s.answer p { tag := tag, items := [item], close := ⟨status, detail1, detail2⟩ }

/-- R173: a notice joins a port's queue, or is discarded with the overflow flag set when the queue is full. -/
def PortRec.queueNotice (r : PortRec) (n : Notice) : PortRec :=
  if r.notices.length < Config.maxNotices then { r with notices := r.notices ++ [n] } else { r with overflow := true }

/-- R173: a notice is queued to both ports. -/
def State.notify (s : State) (n : Notice) : State :=
  { s with rig := s.rig.queueNotice n, safety := s.safety.queueNotice n }

/-- Notices queued in the order of the list. -/
def State.notifyAll (s : State) (ns : List Notice) : State := ns.foldl State.notify s

/-! ## The taking of a request (R169)

A request command that its port has passed is the taking of it by its owner. One that comes unpassed stands for its frame
and its taking together: it goes through the request stage first (entry 1). -/

/-- Table 11-9: the kind of a request in service. -/
def Work.kind : Work → Nat
  | .zones _ _ => 0x27
  | .marks _ _ => 0x34
  | .queue _ => 0x43
  | .laneCheck _ => 0x14

/-- R169 step 4: the requests that pass while one is in service. -/
def passesService : Instr → Bool
  | .abort _ _ => true
  | .steer _ _ _ => true
  | .halt _ _ => true
  | _ => false

/-- R169: request `c` reaches its owner: its port has passed it, or, with nothing before it at the port, it passes steps 1
and 4. -/
def State.takes (s : State) (p : Port) (c : Instr) : Bool :=
  let r := s.port p
  r.passed == some c
    || (r.passed.isNone && r.completed.isEmpty && decide (r.answers.length < Config.maxAnswers)
      && (r.service.isNone || passesService c))

/-- R169: the owner takes the request, which is passed no longer. -/
def State.arrive (s : State) (p : Port) (c : Instr) : State :=
  if (s.port p).passed = some c then s.setPort p { s.port p with passed := none } else s

/-- R169: an unpassed request that does not reach its owner. Behind a frame or a request that has not been taken its own
frame waits its turn; with 4 answers waiting it is discarded (step 1); with a request in service it is answered BUSY
(step 4). -/
def State.turnAway (s : State) (p : Port) (tag : Byte) (c : Instr) : State :=
  let r := s.port p
  if r.passed.isSome || !r.completed.isEmpty then
    s.setPort p { r with completed := r.completed ++ ((encodeRequest c).map Prod.snd).toList }
  else if Config.maxAnswers ≤ r.answers.length then s
  else
    match r.service with
    | some v => s.close p tag .busy v.work.kind 0
    | none => s

/-- R169: a request command whose owner's meaning is `owner`. -/
def State.take (s : State) (p : Port) (tag : Byte) (c : Instr) (owner : State → State) : State :=
  if s.takes p c then owner (s.arrive p c) else s.turnAway p tag c

/-- R170: a request enters service at its port. -/
def State.serve (s : State) (p : Port) (tag : Byte) (work : Work) : State :=
  s.setPort p { s.port p with service := some { work := work, tag := tag, sent := 0 } }

/-! ## Hand-offs -/

/-- A fault report on its way to carrier control (R99). -/
def State.handFault (s : State) (cause : Cause) (winch : Option Winch) : State :=
  { s with hands := { s.hands with faults := s.hands.faults ++ [⟨cause, winch⟩] } }

/-- Travel begun or travel ended on its way to the move queue (R72). -/
def State.handTravel (s : State) (h : TravelHand) : State :=
  { s with hands := { s.hands with travel := s.hands.travel ++ [h] } }

/-- R72: end travel on its way to carrier control, with the number of the travel begun taken last. The queue clears
the flag before it hands it. -/
def State.handEnd (s : State) (reason : EndReason) : State :=
  { s with
    queue := { s.queue with travelFlag := false }
    hands := { s.hands with ends := s.hands.ends ++ [⟨s.queue.lastBegun, reason⟩] } }

/-- R41: a report of changes in force on its way to the mark table; an event that gives none hands none. -/
def State.handChanges (s : State) (zones : List Nat) : State :=
  if zones.isEmpty then s else { s with hands := { s.hands with changes := s.hands.changes ++ [zones] } }

/-- R57: a report on its way from the mark table to the move queue. -/
def State.handMarkReport (s : State) (r : MarkReport) : State :=
  { s with hands := { s.hands with markReports := s.hands.markReports ++ [r] } }

/-- R159: a raise of STOP on its way to the drive bus controller. -/
def State.handRaise (s : State) (r : Raise) : State := { s with hands := { s.hands with raises := s.hands.raises ++ [r] } }

/-- R126: a freeze on its way to the path generator. -/
def State.handFreeze (s : State) : State := { s with hands := { s.hands with freeze := true } }

/-- R154: a wind hold change on its way to carrier control. -/
def State.handWindChange (s : State) (hold : Bool) : State :=
  { s with hands := { s.hands with windChanges := s.hands.windChanges ++ [hold] } }

/-! ## The mode -/

/-- R89: the mode changes; each event that enters STEER owns the stick, and each that leaves it frees the stick and
zeroes the steer vector. -/
def Carrier.toMode (c : Carrier) (m : Mode) : Carrier :=
  if m == .steer then { c with mode := m, stickOwned := true }
  else if c.mode == .steer then { c with mode := m, stickOwned := false, steer := Vec.zero }
  else { c with mode := m, stickOwned := false }

/-- R91: the MODE notice of a change from `previous` to the mode that stands. -/
def State.modeNotice (s : State) (reason : ModeReason) (previous : Mode) (queueReason : Option EndReason) : State :=
  s.notify (.mode reason s.carrier.mode previous queueReason s.carrier.causes s.carrier.first s.carrier.poseLost)

/-- A change of mode with its MODE notice. -/
def State.changeMode (s : State) (m : Mode) (reason : ModeReason) (queueReason : Option EndReason := none) : State :=
  State.modeNotice { s with carrier := s.carrier.toMode m } reason s.carrier.mode queueReason

end Sys2Proof.Machine
end

