-- ==== Sys2Proof/Machine/Marks.lean ====
section
/-! DEFINITION. The mark table (chapter 3): setting, retiring, reading and listing marks, and the report of changes in
force. -/

namespace Sys2Proof.Machine

/-! ## The table -/

def markAt (marks : List Mark) (n : Nat) : Option Mark := marks.find? (fun m => m.number == n)

/-- The record takes its place in ascending number, in place of one with its number (R49). -/
def insertMark (m : Mark) : List Mark → List Mark
  | [] => [m]
  | x :: rest =>
      if m.number < x.number then m :: x :: rest
      else if m.number = x.number then m :: rest
      else x :: insertMark m rest

def removeMark (n : Nat) (marks : List Mark) : List Mark := marks.filter (fun m => m.number != n)

/-! ## The report of changes in force (R52) -/

/-- The mark test made again on a record (R52). -/
def remark (zones : List Zone) (m : Mark) : Mark :=
  let t := markTest zones m.point
  { m with state := t.1, blocker := t.2 }

/-- The MARK notice of a re-evaluation: none where the state stays (R52, Table 3-4). -/
def remarkNotice (zones : List Zone) (m : Mark) : Option Notice :=
  let m' := remark zones m
  if m'.state = m.state then none
  else some (.mark (if m'.state = .blocked then .blocked else .cleared) (some m.state) m')

/-- A mark whose state a re-evaluation changes, with its new state (Table 3-3). -/
def remarkChange (zones : List Zone) (m : Mark) : Option (Nat × MarkState) :=
  let m' := remark zones m
  if m'.state = m.state then none else some (m.number, m'.state)

/-- R52: every mark is re-evaluated against the zone table, in ascending number; then the state changes are handed to
the move queue as one report. -/
def reevaluateMarks (s : State) : State :=
  let changed := s.marks.filterMap (remarkChange s.zones)
  let s1 := State.notifyAll { s with marks := s.marks.map (remark s.zones) }
    (s.marks.filterMap (remarkNotice s.zones))
  if changed.isEmpty then s1 else s1.handMarkReport (.changed changed)

/-- The mark table takes the oldest report of changes in force that stands. -/
def takeChangeReport (s : State) : State :=
  match s.hands.changes with
  | [] => s
  | _ :: rest => reevaluateMarks { s with hands := { s.hands with changes := rest } }

/-- R52: a report that stands is taken before any later zone event, mark request or read of a mark by the move
queue (entry 3). -/
def settleMarks (s : State) : State := s.hands.changes.foldl (fun t _ => takeChangeReport t) s

def execChangeInForceReport (s : State) : Result := .next (takeChangeReport s)

/-! ## Setting a mark (R53, R54) -/

/-- The record of an accepted MARK_SET or MARK_HERE, after the mark test on its point (R53). -/
def newMark (zones : List Zone) (number : Nat) (point : Vec3) (cap : Option Nat) (label : List Byte) : Mark :=
  remark zones { number := number, point := point, speedCap := cap, label := label, state := .clear, blocker := 0 }

/-- R53, R54, R57: the record is created or replaced, with its notice, its reports and its CLOSE. -/
def storeMark (s : State) (p : Port) (tag : Byte) (number : Nat) (point : Vec3) (cap : Nat) (label : List Byte) :
    State :=
  let m := newMark s.zones number point (clampSpeedCap s.settings.speedCap cap) label
  let clamped := speedCapClamped s.settings.speedCap cap
  let s1 := { s with marks := insertMark m s.marks }
  let s2 :=
    match markAt s.marks number with
    | none => s1.notify (.mark .set none m)
    | some old =>
        let t := (s1.notify (.mark .replaced (some old.state) m)).handMarkReport (.replaced number)
        if m.state = old.state then t else t.handMarkReport (.changed [(number, m.state)])
  s2.close p tag (clampStatus clamped) number (if clamped then 1 else 0)

/-- R53. -/
def markSet (p : Port) (tag : Byte) (b : MarkSetBody) (s : State) : State :=
  if b.mark > Config.maxMarkNumber then s.close p tag .outOfRange b.mark 5
  else
    match positionFault b.point with
    | some axis => s.close p tag .outOfRange b.mark axis
    | none =>
        match labelFault b.label with
        | some code => s.close p tag .outOfRange b.mark code
        | none => storeMark s p tag b.mark b.point b.speedCap b.label

def execMarkSet (p : Port) (tag : Byte) (b : MarkSetBody) (s : State) : Result :=
  .next (s.take p tag (.markSet p tag b) (fun t => markSet p tag b (settleMarks t)))

/-- R55. The pose is that of the most recent published step result, which the path generator holds. -/
def markHere (p : Port) (tag : Byte) (b : MarkHereBody) (s : State) : State :=
  if b.mark > Config.maxMarkNumber then s.close p tag .outOfRange b.mark 5
  else
    match s.path with
    | none => s.close p tag .wrongMode b.mark 0
    | some path =>
        if s.carrier.mode = .offline then s.close p tag .wrongMode b.mark 0
        else if s.carrier.poseLost then s.close p tag .poseLost b.mark 0
        else
          match labelFault b.label with
          | some code => s.close p tag .outOfRange b.mark code
          | none =>
              let point := Vec.map roundToMm path.pose
              match positionFault point with
              | some axis => s.close p tag .outOfRange b.mark axis
              | none => storeMark s p tag b.mark point b.speedCap b.label

def execMarkHere (p : Port) (tag : Byte) (b : MarkHereBody) (s : State) : Result :=
  .next (s.take p tag (.markHere p tag b) (fun t => markHere p tag b (settleMarks t)))

/-! ## Retiring, reading and listing (R56, R58, R59) -/

/-- R56, R57: the record leaves the table, and the retirement is handed to the move queue. -/
def markRetire (p : Port) (tag : Byte) (n : Nat) (s : State) : State :=
  if n > Config.maxMarkNumber then s.close p tag .outOfRange n 5
  else
    match markAt s.marks n with
    | none => s.close p tag .noRecord n 0
    | some m =>
        let s1 := { s with marks := removeMark n s.marks }
        ((s1.notify (.mark .retired (some m.state) m)).handMarkReport (.retired n)).close p tag .ok n 0

def execMarkRetire (p : Port) (tag : Byte) (n : Nat) (s : State) : Result :=
  .next (s.take p tag (.markRetire p tag n) (fun t => markRetire p tag n (settleMarks t)))

/-- R58. -/
def markRead (p : Port) (tag : Byte) (n : Nat) (s : State) : State :=
  if n > Config.maxMarkNumber then s.close p tag .outOfRange n 5
  else
    match markAt s.marks n with
    | none => s.close p tag .noRecord n 0
    | some m => s.closeItem p tag (.mark m) .ok n 0

def execMarkRead (p : Port) (tag : Byte) (n : Nat) (s : State) : Result :=
  .next (s.take p tag (.markRead p tag n) (fun t => markRead p tag n (settleMarks t)))

/-- The filter codes of Table 11-8. -/
def markFilterOf : Nat → Option MarkFilter
  | 0 => some .all
  | 1 => some (.state .clear)
  | 2 => some (.state .blocked)
  | _ => none

/-- R59: an unknown filter is refused; otherwise the listing enters service with its cursor before mark 0. -/
def markList (p : Port) (tag : Byte) (filter : Nat) (s : State) : State :=
  match markFilterOf filter with
  | none => s.close p tag .outOfRange 0 7
  | some f => s.serve p tag (.marks f none)

def execMarkList (p : Port) (tag : Byte) (filter : Nat) (s : State) : Result :=
  .next (s.take p tag (.markList p tag filter) (fun t => markList p tag filter (settleMarks t)))

def MarkFilter.admits : MarkFilter → Mark → Bool
  | .all, _ => true
  | .state st, m => m.state == st

/-- R59: the lowest-numbered record above the cursor that matches the filter. -/
def nextMark (marks : List Mark) (f : MarkFilter) (cursor : Option Nat) : Option Mark :=
  marks.find? (fun m => (match cursor with | none => true | some c => decide (c < m.number)) && f.admits m)

end Sys2Proof.Machine
end

