-- ==== Sys2Proof/Machine/Zones.lean ====
section
/-! DEFINITION. The zone table (chapter 2): the published step result, the second tick, and every zone request. -/

namespace Sys2Proof.Machine

/-! ## The table -/

def zoneAt (zones : List Zone) (n : Nat) : Option Zone := zones.find? (fun z => z.number == n)

/-- The record takes its place in ascending number. -/
def insertZone (z : Zone) : List Zone → List Zone
  | [] => [z]
  | x :: rest => if z.number < x.number then z :: x :: rest else x :: insertZone z rest

def replaceZone (z : Zone) (zones : List Zone) : List Zone := zones.map (fun x => if x.number = z.number then z else x)

def removeZone (n : Nat) (zones : List Zone) : List Zone := zones.filter (fun z => z.number != n)

/-- R21: the lowest number from 1 to 48 that no record holds. -/
def freeNumber (zones : List Zone) : Option Nat :=
  (List.range' 1 Config.maxZones).find? (fun n => !(zones.any (fun z => z.number == n)))

/-! ## Work on several records in one event (R41) -/

/-- The table as an event has it so far, with the notices and the changes in force it has given. -/
structure ZoneWork where
  zones : List Zone
  news : List (ZoneReason × Zone)
  changed : List Nat
  deriving DecidableEq, Repr

/-- News in ascending zone number, first come first within one number. -/
def insertNews (n : ZoneReason × Zone) : List (ZoneReason × Zone) → List (ZoneReason × Zone)
  | [] => [n]
  | x :: rest => if n.2.number < x.2.number then n :: x :: rest else x :: insertNews n rest

def insertNumber (n : Nat) : List Nat → List Nat
  | [] => [n]
  | x :: rest => if n < x then n :: x :: rest else x :: insertNumber n rest

/-- R41: the table is as the event left it, the ZONE notices are queued in ascending zone number, and the changes are
handed to the mark table together. -/
def State.applyZoneWork (s : State) (w : ZoneWork) : State :=
  ((State.notifyAll { s with zones := w.zones } (w.news.map (fun n => .zone n.1 n.2))).handChanges w.changed)

/-- A record leaves the table with a notice. -/
def ZoneWork.retire (w : ZoneWork) (z : Zone) (reason : ZoneReason) : ZoneWork where
  zones := removeZone z.number w.zones
  news := insertNews (reason, z) w.news
  changed := if z.inForce then insertNumber z.number w.changed else w.changed

/-! ## The published step result (R24, R30, R40) -/

/-- R30: a PENDING keep-out whose expanded box does not meet the reference box becomes ACTIVE. -/
def activates (ref : Box) (z : Zone) : Bool := z.kind == .keepOut && z.state == .pending && !(z.expanded.meets ref)

/-- R30: every PENDING keep-out is examined. -/
def activateAll (ref : Box) (zones : List Zone) : ZoneWork :=
  let hit := (zones.filter (activates ref)).map (fun z => { z with state := .active })
  { zones := zones.map (fun z => if activates ref z then { z with state := .active } else z)
    news := hit.map (fun z => (.activated, z))
    changed := hit.map Zone.number }

/-- R40: an OVERDUE keep-in that is no longer in use is retired. -/
def resolveZone (ref : Box) (w : ZoneWork) (n : Nat) : ZoneWork :=
  match zoneAt w.zones n with
  | none => w
  | some z => if z.kind = .keepIn && z.state = .overdue && !(inUse (some ref) w.zones z) then w.retire z .resolved else w

/-- R30 and then R40, the records in ascending number. -/
def zoneStepWork (ref : Box) (zones : List Zone) : ZoneWork :=
  (zones.map Zone.number).foldl (resolveZone ref) (activateAll ref zones)

/-- R24, R30, R40: the zone table takes a published step result. One that is taken while the part is OFFLINE finds
nothing to do (R24, entry 12). -/
def takeZoneResult (s : State) : State :=
  match s.hands.stepZone with
  | none => s
  | some r =>
      let s1 := { s with hands := { s.hands with stepZone := none } }
      if s1.rigged then State.applyZoneWork { s1 with refBox := some r.box } (zoneStepWork r.box s1.zones) else s1

def execZoneStepResult (s : State) : Result := .next (takeZoneResult (settleMarks s))

/-- R124, R52: before a zone request the table takes a step result that stands, and the mark table a report that
stands (entry 3). -/
def zoneReady (s : State) : State := settleMarks (takeZoneResult (settleMarks s))

/-! ## Lifetimes (R38, R39) -/

/-- R39: a record whose lifetime has reached 0 lapses. -/
def lapseZone (ref : Option Box) (w : ZoneWork) (z : Zone) : ZoneWork :=
  match z.kind with
  | .keepOut => w.retire z .lapsed
  | .keepIn =>
      if inUse ref w.zones z then
        let z' := { z with state := .overdue, lifetime := none }
        { zones := replaceZone z' w.zones
          news := insertNews (.overdue, z') w.news
          changed := insertNumber z.number w.changed }
      else w.retire z .lapsed

/-- R38: one record at a second tick. -/
def tickZone (ref : Option Box) (w : ZoneWork) (n : Nat) : ZoneWork :=
  match zoneAt w.zones n with
  | none => w
  | some z =>
      match z.lifetime with
      | none => w
      | some k =>
          let z' := { z with lifetime := some (k - 1) }
          let w' := { w with zones := replaceZone z' w.zones }
          if k - 1 = 0 then lapseZone ref w' z' else w'

/-- R38: every record in ascending number. -/
def tickWork (ref : Option Box) (zones : List Zone) : ZoneWork :=
  (zones.map Zone.number).foldl (tickZone ref) { zones := zones, news := [], changed := [] }

/-- R38, R121: a step result that stands is taken before the tick, so that no keep-in that alone holds the published
stopping box can lapse unseen (entry 3). -/
def execZoneSecondTick (s : State) : Result :=
  let s1 := zoneReady s
  .next (s1.applyZoneWork (tickWork s1.refBox s1.zones))

/-- ZONE_LAPSE by itself: the record lapses under R39 when its lifetime stands at 0 (entry 2). -/
def zoneLapse (n : Nat) (s : State) : State :=
  match zoneAt s.zones n with
  | none => s
  | some z =>
      if z.lifetime = some 0 then
        s.applyZoneWork (lapseZone s.refBox { zones := s.zones, news := [], changed := [] } z)
      else s

def execZoneLapse (n : Nat) (s : State) : Result := .next (zoneLapse n (zoneReady s))

/-! ## Adding a zone (R27 to R29) -/

def zoneKindOf : Nat → Option ZoneKind
  | 0 => some .keepOut
  | 1 => some .keepIn
  | _ => none

def zoneStateOf : Nat → Option ZoneState
  | 0 => some .pending
  | 1 => some .active
  | 2 => some .overdue
  | _ => none

/-- The detail2 of an accepted ZONE_ADD or ZONE_EDIT: 1 when the margin was clamped. -/
def marginDetail (margin : Nat) : Nat := if margin > Config.maxMargin then 1 else 0

/-- R28: the sub-code of the first test that a keep-in's shrunk box fails. -/
def keepInFault (s : State) (z : Zone) : Option Nat :=
  match z.shrunk.emptyAxis with
  | some axis => some axis
  | none => if s.rigged then (lineRangeFault s.settings z.shrunk).map (fun w => 0x10 + w.val) else none

/-- R29: a keep-out offered while rigged is deferred when its expanded box meets the reference box. -/
def deferred (ref : Option Box) (z : Zone) : Bool :=
  match ref with
  | none => false
  | some b => z.expanded.meets b

/-- R27: the record joins the table, with its notice, its change in force and its CLOSE. -/
def admitZone (p : Port) (tag : Byte) (margin : Nat) (z : Zone) (s : State) : State :=
  let s1 := State.notify { s with zones := insertZone z s.zones } (.zone .added z)
  let s2 := if z.state = .active then s1.handChanges [z.number] else s1
  let status := if z.state = .pending then .deferred else clampStatus (margin > Config.maxMargin)
  s2.close p tag status z.number (marginDetail margin)

/-- R27. -/
def zoneAdd (p : Port) (tag : Byte) (b : ZoneAddBody) (s : State) : State :=
  match zoneKindOf b.kind with
  | none => s.close p tag .outOfRange 0 7
  | some kind =>
      if kind = .keepIn && p = .rig then s.close p tag .notPermitted 0 0
      else
        match extentFault b.least b.greatest with
        | some code => s.close p tag .outOfRange 0 code
        | none =>
            if b.lifetime > Config.maxLifetime then s.close p tag .outOfRange 0 6
            else
              match freeNumber s.zones with
              | none => s.close p tag .tableFull 0 0
              | some n =>
                  let z : Zone :=
                    { number := n, kind := kind, origin := p, state := .active, lock := .opened, least := b.least,
                      greatest := b.greatest, margin := clampMargin b.margin, lifetime := lifetimeOf b.lifetime }
                  match kind with
                  | .keepIn =>
                      match keepInFault s z with
                      | some code => s.close p tag .conflict 0 code
                      | none => admitZone p tag b.margin z s
                  | .keepOut =>
                      admitZone p tag b.margin (if deferred s.refBox z then { z with state := .pending } else z) s

def execZoneAdd (p : Port) (tag : Byte) (b : ZoneAddBody) (s : State) : Result :=
  .next (s.take p tag (.zoneAdd p tag b) (fun t => zoneAdd p tag b (zoneReady t)))

/-! ## Editing a zone (R31 to R33) -/

/-- R31: the lifetime after a KEEP, CLEAR or SET instruction; none for a code or a value that is refused, with the
sub-code in its place. -/
def editLifetime (old : Option Nat) (instruction value : Nat) : Except Nat (Option Nat) :=
  match instruction with
  | 0 => .ok old
  | 1 => .ok none
  | 2 => if value = 0 || value > Config.maxLifetime then .error 6 else .ok (some value)
  | _ => .error 7

/-- R32, R33: the state of the edited record, or the status and the sub-code of the refusal. `z` is the record before
the edit and `z'` with its new extent, margin and lifetime. -/
def editState (s : State) (z z' : Zone) (keep : Bool) : Except (Status × Nat) ZoneState :=
  match z.kind with
  | .keepOut =>
      if z.state = .active && deferred s.refBox z' then .error (.conflict, 0x20) else .ok z.state
  | .keepIn =>
      match keepInFault s z' with
      | some code => .error (.conflict, code)
      | none =>
          if inUse s.refBox s.zones z && !(s.refBox.any (fun b => z'.shrunk.contains b)) then .error (.inUse, 0)
          else .ok (if z.state = .overdue && !keep then .active else z.state)

/-- R31: the record is replaced, with its notice, its change in force and its CLOSE. -/
def admitEdit (p : Port) (tag : Byte) (margin : Nat) (old z : Zone) (s : State) : State :=
  let s1 := State.notify { s with zones := replaceZone z s.zones } (.zone .edited z)
  let s2 := if old.inForce then s1.handChanges [z.number] else s1
  let status := if z.state = .pending then .deferred else clampStatus (margin > Config.maxMargin)
  s2.close p tag status z.number (marginDetail margin)

/-- R31. -/
def zoneEdit (p : Port) (tag : Byte) (b : ZoneEditBody) (s : State) : State :=
  match zoneAt s.zones b.zone with
  | none => s.close p tag .noRecord b.zone 0
  | some z =>
      if p = .rig && z.origin = .safety then s.close p tag .notPermitted b.zone 0
      else if z.lock ≠ .opened then s.close p tag .locked b.zone 0
      else
        match extentFault b.least b.greatest with
        | some code => s.close p tag .outOfRange b.zone code
        | none =>
            match editLifetime z.lifetime b.instruction b.lifetime with
            | .error code => s.close p tag .outOfRange b.zone code
            | .ok life =>
                let z' := { z with least := b.least, greatest := b.greatest, margin := clampMargin b.margin, lifetime := life }
                match editState s z z' (b.instruction == 0) with
                | .error (status, code) => s.close p tag status b.zone code
                | .ok st => admitEdit p tag b.margin z { z' with state := st } s

def execZoneEdit (p : Port) (tag : Byte) (b : ZoneEditBody) (s : State) : Result :=
  .next (s.take p tag (.zoneEdit p tag b) (fun t => zoneEdit p tag b (zoneReady t)))

/-! ## Retiring, locking and fixing (R35 to R37) -/

/-- R35. -/
def zoneRetire (p : Port) (tag : Byte) (n : Nat) (s : State) : State :=
  match zoneAt s.zones n with
  | none => s.close p tag .noRecord n 0
  | some z =>
      if p = .rig && z.origin = .safety then s.close p tag .notPermitted n 0
      else if z.lock ≠ .opened then s.close p tag .locked n 0
      else if z.kind = .keepIn && inUse s.refBox s.zones z then s.close p tag .inUse n 0
      else
        let s1 := State.notify { s with zones := removeZone n s.zones } (.zone .request z)
        (if z.inForce then s1.handChanges [n] else s1).close p tag .ok n 0

def execZoneRetire (p : Port) (tag : Byte) (n : Nat) (s : State) : Result :=
  .next (s.take p tag (.zoneRetire p tag n) (fun t => zoneRetire p tag n (zoneReady t)))

/-- A record gets a new lock, with its notice and a CLOSE (R36, R37). A lock change is no change in force. -/
def relock (p : Port) (tag : Byte) (z : Zone) (lock : ZoneLock) (reason : ZoneReason) (s : State) : State :=
  let z' := { z with lock := lock }
  (State.notify { s with zones := replaceZone z' s.zones } (.zone reason z')).close p tag .ok z.number 0

/-- R36, Table 2-2. -/
def zoneLock (p : Port) (tag : Byte) (n : Nat) (s : State) : State :=
  if p = .rig then s.close p tag .notPermitted n 0
  else
    match zoneAt s.zones n with
    | none => s.close p tag .noRecord n 0
    | some z =>
        match z.lock with
        | .opened => relock p tag z .locked .locked s
        | .locked => s.close p tag .ok n 0
        | .fixed => s.close p tag .locked n 0

def execZoneLock (p : Port) (tag : Byte) (n : Nat) (s : State) : Result :=
  .next (s.take p tag (.zoneLock p tag n) (fun t => zoneLock p tag n (zoneReady t)))

/-- R36, Table 2-2. -/
def zoneUnlock (p : Port) (tag : Byte) (n : Nat) (s : State) : State :=
  if p = .rig then s.close p tag .notPermitted n 0
  else
    match zoneAt s.zones n with
    | none => s.close p tag .noRecord n 0
    | some z =>
        match z.lock with
        | .opened => s.close p tag .ok n 0
        | .locked => relock p tag z .opened .unlocked s
        | .fixed => s.close p tag .locked n 0

def execZoneUnlock (p : Port) (tag : Byte) (n : Nat) (s : State) : Result :=
  .next (s.take p tag (.zoneUnlock p tag n) (fun t => zoneUnlock p tag n (zoneReady t)))

/-- R37, Table 2-2. -/
def zoneFix (p : Port) (tag : Byte) (n : Nat) (s : State) : State :=
  if p = .rig then s.close p tag .notPermitted n 0
  else
    match zoneAt s.zones n with
    | none => s.close p tag .noRecord n 0
    | some z =>
        if z.lock = .fixed then s.close p tag .ok n 0
        else if z.lifetime.isSome || z.state = .overdue then s.close p tag .conflict n 0x30
        else relock p tag z .fixed .fixed s

def execZoneFix (p : Port) (tag : Byte) (n : Nat) (s : State) : Result :=
  .next (s.take p tag (.zoneFix p tag n) (fun t => zoneFix p tag n (zoneReady t)))

/-! ## Reading and listing (R43, R44) -/

/-- R43. -/
def zoneRead (p : Port) (tag : Byte) (n : Nat) (s : State) : State :=
  match zoneAt s.zones n with
  | none => s.close p tag .noRecord n 0
  | some z => s.closeItem p tag (.zone z) .ok n 0

def execZoneRead (p : Port) (tag : Byte) (n : Nat) (s : State) : Result :=
  .next (s.take p tag (.zoneRead p tag n) (fun t => zoneRead p tag n (zoneReady t)))

/-- The filter codes of Table 11-8; the second byte of ALL is ignored (R179). -/
def zoneFilterOf (filter code : Nat) : Option ZoneFilter :=
  match filter with
  | 0 => some .all
  | 1 => (zoneKindOf code).map .kind
  | 2 => (zoneStateOf code).map .state
  | _ => none

/-- R44: an unknown code is refused; otherwise the listing enters service with its cursor at 0. -/
def zoneList (p : Port) (tag : Byte) (filter code : Nat) (s : State) : State :=
  match zoneFilterOf filter code with
  | none => s.close p tag .outOfRange 0 7
  | some f => s.serve p tag (.zones f 0)

def execZoneList (p : Port) (tag : Byte) (filter code : Nat) (s : State) : Result :=
  .next (s.take p tag (.zoneList p tag filter code) (fun t => zoneList p tag filter code (zoneReady t)))

def ZoneFilter.admits : ZoneFilter → Zone → Bool
  | .all, _ => true
  | .kind k, z => z.kind == k
  | .state st, z => z.state == st

/-- R44: the lowest-numbered record above the cursor that matches the filter. -/
def nextZone (zones : List Zone) (f : ZoneFilter) (cursor : Nat) : Option Zone :=
  zones.find? (fun z => decide (cursor < z.number) && f.admits z)

end Sys2Proof.Machine
end

