-- ==== Sys2Proof/Machine/Queue.lean ====
section
/-! DEFINITION. The move queue (chapter 4): adding, starting, arriving, dwelling, stalling and removing moves, the
travel hand-offs, and the reports from the mark table. -/

namespace Sys2Proof.Machine

/-! ## Work of one queue event (R86) -/

/-- What one MOVE notice of the event is about: the reason, the failure and the entry by its order of addition. -/
structure MoveNews where
  reason : MoveReason
  failure : Option Failure
  serial : Nat
  deriving DecidableEq, Repr

/-- The queue as the event has it so far, the notices it has given in the order of its work, the entries it has
removed as they stood then, and the end travel it hands. -/
structure QueueWork where
  q : MoveQueue
  news : List MoveNews
  gone : List Entry
  ends : Option EndReason
  deriving DecidableEq, Repr

def QueueWork.start (s : State) : QueueWork := { q := s.queue, news := [], gone := [], ends := none }

def QueueWork.withEntries (w : QueueWork) (es : List Entry) : QueueWork := { w with q := { w.q with entries := es } }

def QueueWork.tell (w : QueueWork) (reason : MoveReason) (failure : Option Failure) (e : Entry) : QueueWork :=
  { w with news := w.news ++ [⟨reason, failure, e.serial⟩] }

/-- The entry leaves the queue as it stands, with a notice. -/
def QueueWork.remove (w : QueueWork) (e : Entry) (reason : MoveReason) (failure : Option Failure) : QueueWork :=
  { w with
    q := { w.q with entries := w.q.entries.filter (fun x => x.serial != e.serial) }
    news := w.news ++ [⟨reason, failure, e.serial⟩]
    gone := w.gone ++ [e] }

/-- The position of an entry in the queue, with the entry. -/
def entryAt (es : List Entry) (serial : Nat) : Option (Nat × Entry) :=
  (es.zipIdx.find? (fun x => x.1.serial == serial)).map (fun x => (x.2, x.1))

/-- R86: a MOVE notice carries the entry as it stands after the event or as it stood when removed, and the queue
count after the event. -/
def QueueWork.notice (w : QueueWork) (n : MoveNews) : Option Notice :=
  match entryAt w.q.entries n.serial with
  | some (i, e) => some (.move n.reason n.failure w.q.entries.length e (some i))
  | none =>
      (w.gone.find? (fun e => e.serial == n.serial)).map
        (fun e => .move n.reason n.failure w.q.entries.length e none)

/-- R72, R86: the queue is as the event left it, its notices are queued in the order of its work, and the end travel
is handed after them. -/
def State.applyQueueWork (s : State) (w : QueueWork) : State :=
  let s1 := State.notifyAll { s with queue := w.q } (w.news.filterMap w.notice)
  match w.ends with
  | none => s1
  | some reason => s1.handEnd reason

/-! ## Look-ahead (R76) -/

/-- R68: the target's point in µm as it stands now; none when the mark is not in the table. -/
def targetPoint (marks : List Mark) : Target → Option Vec3
  | .mark n => (markAt marks n).map (fun m => Vec.micro m.point)
  | .point p => some (Vec.micro p)

/-- R67, R75, R76: the target is judged: the mark's own state, or the mark test on a POINT. A mark that is not in the
table is judged BLOCKED with blocker 0; only a look-ahead meets one, while its retirement is on its way (entry 3). -/
def judgeTarget (zones : List Zone) (marks : List Mark) : Target → MarkState × Nat
  | .mark n =>
      match markAt marks n with
      | some m => (m.state, m.blocker)
      | none => (.blocked, 0)
  | .point p => markTest zones p

/-- R76: the verdict on an entry's route from the head's bound point. An entry whose mark has left the table can start no
more: BLOCKED (entry 3). -/
def lookAheadOf (s : State) (from_ : Vec3) (e : Entry) : LookAhead :=
  match targetPoint s.marks e.target with
  | none => .blocked
  | some to_ =>
      if (judgeTarget s.zones s.marks e.target).1 = .blocked then .blocked
      else if (routeFault s.zones from_ to_).isSome then .blocked
      else .clear

/-- R76: the look-ahead of the entry directly behind a RUNNING or DWELLING head is formed; a change to BLOCKED sends a
notice. -/
def formLookAhead (s : State) (w : QueueWork) : QueueWork :=
  match w.q.entries with
  | h :: e :: rest =>
      match h.leads, h.bound with
      | true, some b =>
          let v := lookAheadOf s b.point e
          let e' := { e with lookAhead := v }
          let w' := w.withEntries (h :: e' :: rest)
          if v = .blocked && e.lookAhead ≠ .blocked then w'.tell .lookaheadBlocked none e' else w'
      | _, _ => w
  | _ => w

/-- R76: every entry that is not behind a RUNNING or DWELLING head is UNCHECKED; here, the head. -/
def uncheckHead (w : QueueWork) : QueueWork :=
  match w.q.entries with
  | [] => w
  | e :: rest => w.withEntries ({ e with lookAhead := .unchecked } :: rest)

/-! ## Becoming the head, and starting (R74, R75) -/

/-- R75 step 1: the bound point and the bound cap. -/
def bindTarget (marks : List Mark) (e : Entry) : Option Bound :=
  match e.target with
  | .mark n =>
      (markAt marks n).map (fun m =>
        { point := Vec.micro m.point, cap := match e.speedCap with | some c => some c | none => m.speedCap })
  | .point p => some { point := Vec.micro p, cap := e.speedCap }

/-- R75: the pose of the most recent published step result, which the path generator holds. -/
def State.pose (s : State) : Vec3 :=
  match s.path with
  | none => Vec.zero
  | some p => p.pose

/-- R75: the failure of a start, if it has one. -/
def startFailure (s : State) (e : Entry) (b : Bound) : Option Failure :=
  if (judgeTarget s.zones s.marks e.target).1 = .blocked then some .targetBlocked
  else (routeFault s.zones s.pose b.point).map (fun f => .routeBlocked f.1 f.2)

/-- R75: the head is started. -/
def startHead (s : State) (w : QueueWork) : QueueWork :=
  match w.q.entries with
  | [] => w
  | e :: rest =>
      match bindTarget s.marks e with
      | none => { w.remove e .dropped (some .markRetired) with ends := some .drop }
      | some b =>
          match startFailure s e b with
          | some f => { w.remove { e with bound := some b } .dropped (some f) with ends := some .drop }
          | none =>
              let e' := { e with state := .running, bound := some b, stall := 0 }
              formLookAhead s ((w.withEntries (e' :: rest)).tell .started none e')

/-- R74: an entry becomes the head. While the travel flag is set it is started or armed by its release, and an empty
queue hands end travel. -/
def becomeHead (s : State) (w : QueueWork) : QueueWork :=
  let w := uncheckHead w
  if w.q.travelFlag then
    match w.q.entries with
    | [] => { w with ends := some .empty }
    | e :: rest =>
        match e.release with
        | .immediate => startHead s w
        | .cue =>
            let e' := { e with state := .armed }
            (w.withEntries (e' :: rest)).tell .armed none e'
  else w

/-- R78: the head completes and the next entry becomes the head. -/
def completeHead (s : State) (w : QueueWork) (e : Entry) : QueueWork := becomeHead s (w.remove e .completed none)

/-! ## Reports from the mark table (R84) -/

/-- The entry targets mark `n`. -/
def Entry.targets (e : Entry) (n : Nat) : Bool := e.target == .mark n

/-- The entry that stands directly behind a RUNNING or DWELLING head. -/
def behindHead (es : List Entry) : Option Entry :=
  match es with
  | h :: e :: _ => if h.leads then some e else none
  | _ => none

/-- R84, retirement of mark `n`. R84 gives no order between the removal of later entries and the look-ahead of the entry that
moves up: every entry is removed first, and the look-ahead is formed once after them (entry 28). -/
def retireInQueue (s : State) (n : Nat) (w : QueueWork) : QueueWork :=
  let es := w.q.entries
  let victim := fun (e : Entry) => e.targets n && !e.leads
  let w1 := (es.filter victim).foldl (fun w e => w.remove e .dropped (some .markRetired)) w
  let w2 := w1.withEntries (w1.q.entries.map (fun e => if e.targets n then { e with markRetired := true } else e))
  let w3 := if (behindHead es).any victim then formLookAhead s w2 else w2
  match es with
  | [] => w3
  | h :: _ => if victim h && h.state == .armed && w.q.travelFlag then { w3 with ends := some .drop } else w3

/-- R84: one report taken by the move queue. -/
def reportInQueue (s : State) (r : MarkReport) (w : QueueWork) : QueueWork :=
  match r with
  | .retired n => retireInQueue s n w
  | .replaced n => if (behindHead w.q.entries).any (fun e => e.targets n) then formLookAhead s w else w
  | .changed ms =>
      if (behindHead w.q.entries).any (fun e => ms.any (fun m => e.targets m.1)) then formLookAhead s w else w

/-- The move queue takes the oldest report of the mark table that stands. -/
def takeMarkReport (s : State) : State :=
  match s.hands.markReports with
  | [] => s
  | r :: rest =>
      let s1 := { s with hands := { s.hands with markReports := rest } }
      s1.applyQueueWork (reportInQueue s1 r (QueueWork.start s1))

def MarkReport.retires : MarkReport → Bool
  | .retired _ => true
  | _ => false

/-- The reports up to the last retirement that stands, in the order handed. -/
def dueReports : List MarkReport → List MarkReport
  | [] => []
  | r :: rest => if (r :: rest).any MarkReport.retires then r :: dueReports rest else []

/-- R52, R63, R84: before an event at the move queue the mark table takes a report that stands, and the queue takes the
retirements that stand, each in its turn. A replacement or a state change that stands behind them waits: R87 lets the
event come first (entry 3). -/
def queueReady (s : State) : State :=
  let s1 := settleMarks s
  (dueReports s1.hands.markReports).foldl (fun t _ => takeMarkReport t) s1

/-- RETIREMENT_REPORT takes the oldest report when it is a retirement (entry 1). -/
def execRetirementReport (s : State) : Result :=
  match s.hands.markReports with
  | .retired _ :: _ => .next (takeMarkReport (settleMarks s))
  | _ => .next s

/-- REPLACEMENT_REPORT takes the oldest report when it is a replacement (entry 1). -/
def execReplacementReport (s : State) : Result :=
  match s.hands.markReports with
  | .replaced _ :: _ => .next (takeMarkReport (settleMarks s))
  | _ => .next s

/-- STATE_CHANGE_REPORT takes the oldest report when it is a state change (entry 1). -/
def execStateChangeReport (s : State) : Result :=
  match s.hands.markReports with
  | .changed _ :: _ => .next (takeMarkReport (settleMarks s))
  | _ => .next s

/-! ## Travel begun and travel ended (R72, R74, R80) -/

/-- R72: the flag is set and the head is taken as one that has just become the head. -/
def travelBegun (n : Nat) (s : State) : State :=
  let w := QueueWork.start s
  s.applyQueueWork (becomeHead s { w with q := { w.q with travelFlag := true, lastBegun := n } })

def execTravelBegun (s : State) : Result :=
  match s.hands.travel with
  | .begun n :: rest => .next (travelBegun n (queueReady { s with hands := { s.hands with travel := rest } }))
  | _ => .next s

/-- R80: the head at travel ended, by its state; the flag is clear. -/
def endHead (w : QueueWork) : QueueWork :=
  match w.q.entries with
  | [] => w
  | e :: rest =>
      match e.state with
      | .queued => w
      | .armed =>
          let e' := { e with state := .queued }
          (w.withEntries (e' :: rest)).tell .returned none e'
      | .running =>
          if e.markRetired then w.remove e .dropped (some .markRetired)
          else
            let e' := { e with state := .queued, bound := none, stall := 0 }
            (w.withEntries (e' :: rest)).tell .returned none e'
      | .dwelling => w.remove e .completed none

/-- R80. -/
def travelEnded (s : State) : State :=
  let w := QueueWork.start s
  let w1 := endHead { w with q := { w.q with travelFlag := false } }
  s.applyQueueWork (w1.withEntries (w1.q.entries.map (fun e => { e with lookAhead := .unchecked })))

def execTravelEnded (s : State) : Result :=
  match s.hands.travel with
  | .ended :: rest => .next (travelEnded (queueReady { s with hands := { s.hands with travel := rest } }))
  | _ => .next s

/-! ## The cue line (R74) -/

/-- R74: a rising edge starts an ARMED head while the travel flag is set. -/
def cueEdge (s : State) : State :=
  match s.queue.entries with
  | [] => s
  | e :: _ =>
      if e.state = .armed && s.queue.travelFlag then s.applyQueueWork (startHead s (QueueWork.start s)) else s

def execCueEdge (s : State) : Result := .next (cueEdge (queueReady s))

/-! ## Arrival, dwell and stall (R77 to R79) -/

/-- R77: a RUNNING head arrives. -/
def arriveHead (s : State) (w : QueueWork) (e : Entry) (rest : List Entry) : QueueWork :=
  let e' := { e with remaining := e.dwell }
  if e.dwell = 0 then completeHead s ((w.withEntries (e' :: rest)).tell .arrived none e') e'
  else
    let d := { e' with state := .dwelling, stall := 0 }
    (w.withEntries (d :: rest)).tell .arrived none d

/-- R79: the stall count of a RUNNING head that has not arrived. -/
def stallHead (w : QueueWork) (e : Entry) (rest : List Entry) (r : StepResult) : QueueWork :=
  if r.verdict = .braked && r.atRest then
    let e' := { e with stall := e.stall + 1 }
    if e'.stall = Config.stallLimit then { uncheckHead (w.remove e' .stalled none) with ends := some .stall }
    else w.withEntries (e' :: rest)
  else w.withEntries ({ e with stall := 0 } :: rest)

/-- R78: one period of the dwell of a DWELLING head. -/
def dwellHead (s : State) (w : QueueWork) (e : Entry) (rest : List Entry) : QueueWork :=
  let e' := { e with remaining := e.remaining - 1 }
  if e'.remaining = 0 then completeHead s (w.withEntries (e' :: rest)) e' else w.withEntries (e' :: rest)

/-- R77 to R79: the head takes a step result by its state. -/
def stepHead (s : State) (r : StepResult) (w : QueueWork) : QueueWork :=
  match w.q.entries with
  | [] => w
  | e :: rest =>
      match e.state with
      | .queued => w
      | .armed => w
      | .running => if r.arrival then arriveHead s w e rest else stallHead w e rest r
      | .dwelling => dwellHead s w e rest

/-- The move queue takes a published step result. -/
def takeQueueResult (s : State) : State :=
  match s.hands.stepQueue with
  | none => s
  | some r =>
      let s1 := queueReady { s with hands := { s.hands with stepQueue := none } }
      if s1.rigged then s1.applyQueueWork (stepHead s1 r (QueueWork.start s1)) else s1

def execQueueStepResult (s : State) : Result := .next (takeQueueResult s)

/-- DWELL_END by itself: a DWELLING head whose remaining dwell stands at 0 completes (R78, entry 2). -/
def dwellEnd (s : State) : State :=
  match s.queue.entries with
  | [] => s
  | e :: _ =>
      if e.state = .dwelling && e.remaining = 0 then s.applyQueueWork (completeHead s (QueueWork.start s) e) else s

def execDwellEnd (s : State) : Result := .next (dwellEnd (queueReady s))

/-! ## Adding a move (R66 to R68, R71) -/

/-- R71: the number of periods of a route of `d` µm at speed `s` under the acceleration rate `a`. -/
def etaPeriods (d s a : Nat) : Nat :=
  if d = 0 then 0
  else
    let k := ceilDiv s a
    let r := 2 * a * k * (k + 1)
    if 2 * r ≤ d then 2 * k + ceilDiv (d - 2 * r) (4 * s)
    else
      let j := greatest (fun j => decide (4 * a * j * (j + 1) ≤ d)) (d.log2 / 2 + 1) 0
      2 * j + ceilDiv (d - 4 * a * j * (j + 1)) (4 * a * (j + 1))

/-- R113: the base cap. -/
def baseCap (st : Settings) : Int := st.speedCap * st.capTrim / 100

/-- R71: the speed of the ETA, from the entry's cap or the mark's. -/
def etaSpeed (st : Settings) (entryCap markCap : Option Nat) : Nat :=
  let base := (baseCap st).toNat
  match entryCap with
  | some c => min c base
  | none =>
      match markCap with
      | some c => min c base
      | none => base

/-- R71: the ETA in ms. -/
def etaOf (st : Settings) (from_ to_ : Vec3) (entryCap markCap : Option Nat) : Nat :=
  4 * etaPeriods (ceilSqrt (Vec.sq (Vec.sub to_ from_)).toNat) (etaSpeed st entryCap markCap) st.accelRate.toNat

/-- R68: the route start. A tail whose mark is not in the table does not occur (R84, entry 3). -/
def routeStart (s : State) : Vec3 :=
  match s.queue.entries.getLast? with
  | none => s.pose
  | some e =>
      match e.leads, e.bound with
      | true, some b => b.point
      | _, _ => (targetPoint s.marks e.target).getD s.pose

/-- R66: the next move number after `n`, past any number that `held` holds. -/
def advanceId (held : List Nat) : (tries : Nat) → Nat → Nat
  | 0, n => n
  | k + 1, n =>
      let m := if n = Config.maxMoveId then 1 else n + 1
      if held.contains m then advanceId held k m else m

def targetOf (kind mark : Nat) (point : Vec3) : Option Target :=
  match kind with
  | 0 => some (.mark mark)
  | 1 => some (.point point)
  | _ => none

def releaseOf : Nat → Option Release
  | 0 => some .immediate
  | 1 => some .cue
  | _ => none

/-- R67 step 2: the sub-code of the first fault of a target. -/
def targetFault : Target → Option Nat
  | .mark n => if n > Config.maxMarkNumber then some 5 else none
  | .point p => positionFault p

/-- R67: the clamps, as the sum that R68 reports in detail2. -/
def moveClamps (st : Settings) (b : MoveAddBody) : Nat :=
  (if speedCapClamped st.speedCap b.speedCap then 1 else 0)
    + (if b.tolerance > Config.maxTolerance then 2 else 0)
    + (if b.dwell > Config.maxDwell then 4 else 0)

/-- R67: the tolerance kept. -/
def clampTolerance (t : Nat) : Nat := if t = 0 then Config.defaultTolerance else min t Config.maxTolerance

/-- R68: the entry that an accepted MOVE_ADD creates, for a route that ends at `to_`. -/
def newEntry (s : State) (b : MoveAddBody) (target : Target) (release : Release) (to_ : Vec3) : Entry :=
  let cap := clampSpeedCap s.settings.speedCap b.speedCap
  let markCap :=
    match target with
    | .mark n => (markAt s.marks n).bind Mark.speedCap
    | .point _ => none
  let dwell := min b.dwell Config.maxDwell
  { id := s.queue.nextId
    serial := s.queue.nextSerial
    target := target
    markRetired := false
    speedCap := cap
    tolerance := clampTolerance b.tolerance
    dwellMs := dwell
    dwell := ceilDiv dwell 4
    release := release
    state := .queued
    bound := none
    lookAhead :=
      match s.queue.entries with
      | [h] => if h.leads then .clear else .unchecked
      | _ => .unchecked
    eta := etaOf s.settings (routeStart s) to_ cap markCap
    remaining := 0
    stall := 0 }

/-- R66, R68: the entry joins the queue at its tail, with its ITEM, its CLOSE and its notice. -/
def admitMove (p : Port) (tag : Byte) (clamps : Nat) (e : Entry) (s : State) : State :=
  let n := s.queue.entries.length
  let es := s.queue.entries ++ [e]
  let q := { s.queue with
    entries := es
    nextId := advanceId (es.map Entry.id) (es.length + 1) s.queue.nextId
    nextSerial := s.queue.nextSerial + 1 }
  let s1 := State.notify { s with queue := q } (.move .added none es.length e (some n))
  s1.closeItem p tag (.move e n) (clampStatus (clamps != 0)) n clamps

/-- R67 steps 5 to 7: the refusal of a target that names no mark, is BLOCKED or has no route. -/
def moveFault (s : State) (target : Target) : Option (Status × Nat × Nat) :=
  match targetPoint s.marks target with
  | none =>
      match target with
      | .mark n => some (.noRecord, n, 0)
      | .point _ => none
  | some to_ =>
      match judgeTarget s.zones s.marks target with
      | (.blocked, blocker) =>
          match target with
          | .mark n => some (.targetBlocked, n, blocker)
          | .point _ => some (.targetBlocked, 0xFF, blocker)
      | (.clear, _) =>
          match routeFault s.zones (routeStart s) to_ with
          | some (zone, code) => some (.routeBlocked, zone, code)
          | none => none

/-- R67. -/
def moveAdd (p : Port) (tag : Byte) (b : MoveAddBody) (s : State) : State :=
  match targetOf b.kind b.mark b.point with
  | none => s.close p tag .outOfRange 0 7
  | some target =>
      match releaseOf b.release with
      | none => s.close p tag .outOfRange 0 8
      | some release =>
          match targetFault target with
          | some code => s.close p tag .outOfRange 0 code
          | none =>
              if s.carrier.mode = .offline || s.carrier.mode = .parked || s.carrier.mode.isHalted then
                s.close p tag .wrongMode 0 0
              else if s.queue.entries.length ≥ Config.maxEntries then s.close p tag .queueFull 8 0
              else
                match moveFault s target with
                | some (status, d1, d2) => s.close p tag status d1 d2
                | none =>
                    let to_ := (targetPoint s.marks target).getD Vec.zero
                    admitMove p tag (moveClamps s.settings b) (newEntry s b target release to_) s

def execMoveAdd (p : Port) (tag : Byte) (b : MoveAddBody) (s : State) : Result :=
  .next (s.take p tag (.moveAdd p tag b) (fun t => moveAdd p tag b (queueReady t)))

/-! ## Removing and listing (R82, R83, R85) -/

/-- R82: the effect of a cancel on the rest of the queue, by the state and the place of the entry removed. -/
def cancelEntry (s : State) (w : QueueWork) (position : Nat) (e : Entry) : QueueWork :=
  let behind := position = 1 && (w.q.entries.head?.any Entry.leads)
  let w1 := w.remove e .cancelled none
  match e.state with
  | .running => { uncheckHead w1 with ends := some .cancel }
  | .dwelling => becomeHead s w1
  | .armed => becomeHead s w1
  | .queued => if behind then formLookAhead s w1 else uncheckHead w1

/-- R82. -/
def moveCancel (p : Port) (tag : Byte) (id : Nat) (s : State) : State :=
  if s.carrier.mode = .offline then s.close p tag .wrongMode 0 0
  else
    match s.queue.entries.zipIdx.find? (fun x => x.1.id == id) with
    | none => s.close p tag .noRecord 0 0
    | some (e, i) => (s.applyQueueWork (cancelEntry s (QueueWork.start s) i e)).close p tag .ok i 0

def execMoveCancel (p : Port) (tag : Byte) (id : Nat) (s : State) : Result :=
  .next (s.take p tag (.moveCancel p tag id) (fun t => moveCancel p tag id (queueReady t)))

/-- R83. -/
def queueClear (p : Port) (tag : Byte) (s : State) : State :=
  if s.carrier.mode = .offline then s.close p tag .wrongMode 0 0
  else
    let n := s.queue.entries.length
    let s1 := State.notify { s with queue := { s.queue with entries := [] } } (.queue .cleared n)
    (if s.queue.travelFlag then s1.handEnd .clear else s1).close p tag .ok n 0

def execQueueClear (p : Port) (tag : Byte) (s : State) : Result :=
  .next (s.take p tag (.queueClear p tag) (fun t => queueClear p tag (queueReady t)))

/-- R85: the listing enters service. -/
def execQueueList (p : Port) (tag : Byte) (s : State) : Result :=
  .next (s.take p tag (.queueList p tag) (fun t => t.serve p tag (.queue 0)))

/-- R85: the oldest entry that was added after the entry last listed, with its position. -/
def nextEntry (es : List Entry) (cursor : Nat) : Option (Entry × Nat) :=
  es.zipIdx.find? (fun x => decide (cursor < x.1.serial))

end Sys2Proof.Machine
end

