-- ==== Sys2Proof/Machine/Carrier.lean ====
section
/-! DEFINITION. Carrier control (chapter 5): the mode, the stick, halt causes and the clearing of a halt. -/

namespace Sys2Proof.Machine

/-! ## Halt causes (R99, R102, R104, R105) -/

/-- R99: the cause joins the set, and is the first cause when the set was empty. -/
def Carrier.addCause (c : Carrier) (r : Report) : Carrier :=
  { c with causes := c.causes ++ [r.cause], first := if c.causes.isEmpty then some r else c.first }

/-- R107: the HALT notice of a cause that joins the set. -/
def State.haltRaised (s : State) (r : Report) : State :=
  s.notify (.halt .raised (some r) s.carrier.causes s.carrier.first s.carrier.poseLost)

/-- R102, R104: travel ended is handed when the mode leaves TRAVEL. -/
def State.endTravelFrom (s : State) (previous : Mode) : State :=
  if previous = .travel then s.handTravel .ended else s

/-- R99, R102, R104, R105: carrier control takes a report of a cause. -/
def raiseCause (r : Report) (s : State) : State :=
  let previous := s.carrier.mode
  if previous = .offline then s
  else if s.carrier.causes.contains r.cause then s
  else
    let c := s.carrier.addCause r
    match r.cause.immediate, previous with
    | false, .halted _ => State.haltRaised { s with carrier := c } r
    | false, .parked =>
        let s1 := State.haltRaised { s with carrier := c.toMode (.halted .stopped) } r
        (s1.handRaise .entry).modeNotice .halt previous none
    | false, _ =>
        let s1 := State.haltRaised { s with carrier := c.toMode (.halted .stopping) } r
        (s1.modeNotice .halt previous none).endTravelFrom previous
    | true, .halted .stopped =>
        if r.cause = .tracking && !c.poseLost then
          let s1 := State.haltRaised { s with carrier := { c with poseLost := true } } r
          (s1.handRaise .again).modeNotice .halt previous none
        else (State.haltRaised { s with carrier := c } r).handRaise .again
    | true, _ =>
        let s1 := State.haltRaised { s with carrier := { c.toMode (.halted .stopped) with poseLost := true } } r
        let reason := if previous.isHalted then ModeReason.escalated else ModeReason.halt
        (((s1.handRaise .entry).handFreeze).modeNotice reason previous none).endTravelFrom previous

/-! ## The published step result (R90, R103) -/

/-- R90, R103: the at-rest flag is stored, the steer age rises, and a controlled stop at rest ends. -/
def carrierStep (r : StepResult) (s : State) : State :=
  let c := { s.carrier with lastAtRest := r.atRest, steerAge := min (s.carrier.steerAge + 1) Config.steerLife }
  let s1 := { s with carrier := c }
  if c.mode = .halted .stopping && r.atRest then (s1.handRaise .entry).changeMode (.halted .stopped) .stopped else s1

/-- Carrier control takes a published step result. -/
def takeCarrierResult (s : State) : State :=
  match s.hands.stepCarrier with
  | none => s
  | some r =>
      let s1 := { s with hands := { s.hands with stepCarrier := none } }
      if s1.rigged then carrierStep r s1 else s1

/-- R90, R96, R102, R128: before PARK, UNRIG, STEER and a report of a halt cause, carrier control takes a step result that
stands: PARK and UNRIG read the flag of the last step, the step after a STEER reads the age 0, and a step made before a
halt ends no stop. In HALTED/STOPPING either may come first (R110), so nothing is taken there (entry 3). -/
def carrierReady (s : State) : State :=
  match s.carrier.mode with
  | .offline => s
  | .halted .stopping => s
  | .hold | .steer | .travel | .parked | .halted .stopped => takeCarrierResult s

def execCarrierStepResult (s : State) : Result := .next (takeCarrierResult s)

/-! ## The reports of a cause (R99 to R101) -/

/-- FAULT_REPORT takes the oldest report that stands (entry 1). -/
def execFaultReport (s : State) : Result :=
  match s.hands.faults with
  | [] => .next s
  | r :: rest =>
      let s1 := carrierReady s
      .next (raiseCause r { s1 with hands := { s1.hands with faults := rest } })

/-- R100: the e-stop line changes level; its becoming active is a report of cause ESTOP (entry 11). -/
def estopActive (level : Bool) (s : State) : State :=
  let s1 := { s with estop := level }
  if level && !s.estop then raiseCause ⟨.estop, none⟩ (carrierReady s1) else s1

def execEstopActive (level : Bool) (s : State) : Result := .next (estopActive level s)

/-- R101. -/
def halt (p : Port) (tag : Byte) (s : State) : State :=
  if s.carrier.mode = .offline then s.close p tag .wrongMode 0 0
  else raiseCause ⟨.request, none⟩ (s.close p tag .ok 0 0)

def execHalt (p : Port) (tag : Byte) (s : State) : Result :=
  .next (s.take p tag (.halt p tag) (fun t => halt p tag (carrierReady t)))

/-! ## Hand-offs from the move queue and the wind gauge input (R72, R98) -/

/-- R72: end travel acts when its number is that of the travel begun handed last and the mode is TRAVEL. -/
def endTravel (h : EndHand) (s : State) : State :=
  if h.number = s.carrier.begun && s.carrier.mode = .travel then s.changeMode .hold .endTravel (some h.reason) else s

def execEndTravel (s : State) : Result :=
  match s.hands.ends with
  | [] => .next s
  | h :: rest => .next (endTravel h { s with hands := { s.hands with ends := rest } })

/-- R98. -/
def windHoldChange (hold : Bool) (s : State) : State :=
  if s.carrier.mode = .offline then s
  else
    let s1 := { s with carrier := { s.carrier with windMirror := hold } }
    if hold then
      match s.carrier.mode with
      | .steer => s1.changeMode .hold .wind
      | .travel => (s1.changeMode .hold .wind).handTravel .ended
      | _ => s1
    else s1

def execWindHoldChange (s : State) : Result :=
  match s.hands.windChanges with
  | [] => .next s
  | h :: rest => .next (windHoldChange h { s with hands := { s.hands with windChanges := rest } })

/-! ## Travel requests (R73, R81) -/

/-- R73. -/
def run (p : Port) (tag : Byte) (s : State) : State :=
  if p = .safety then s.close p tag .notPermitted 0 0
  else if s.carrier.mode ≠ .hold then s.close p tag .wrongMode 0 0
  else if s.queue.entries.isEmpty then s.close p tag .noRecord 0 0
  else if s.carrier.windMirror then s.close p tag .windHold 0 0
  else if !s.boxKeptIn then s.close p tag .conflict 0 0
  else
    let n := s.carrier.begun + 1
    let s1 := { s with carrier := { s.carrier with begun := n } }
    ((s1.close p tag .ok 0 0).changeMode .travel .run).handTravel (.begun n)

def execRun (p : Port) (tag : Byte) (s : State) : Result :=
  .next (s.take p tag (.run p tag) (run p tag))

/-- R81, R95. -/
def stop (p : Port) (tag : Byte) (s : State) : State :=
  match s.carrier.mode with
  | .travel => ((s.close p tag .ok 0 0).changeMode .hold .stop).handTravel .ended
  | .steer => (s.close p tag .ok 0 0).changeMode .hold .stop
  | _ => s.close p tag .wrongMode 0 0

def execStop (p : Port) (tag : Byte) (s : State) : Result :=
  .next (s.take p tag (.stop p tag) (stop p tag))

/-! ## The stick (R92 to R95) -/

/-- R92. -/
def takeStick (p : Port) (tag : Byte) (s : State) : State :=
  if p = .safety then s.close p tag .notPermitted 0 0
  else if s.carrier.mode ≠ .hold then s.close p tag .wrongMode 0 0
  else if s.carrier.windMirror then s.close p tag .windHold 0 0
  else if !s.boxKeptIn then s.close p tag .conflict 0 0
  else
    let s1 := { s with carrier := { s.carrier with steer := Vec.zero, steerAge := Config.steerLife } }
    (s1.close p tag .ok 0 0).changeMode .steer .stickTaken

def execTakeStick (p : Port) (tag : Byte) (s : State) : Result :=
  .next (s.take p tag (.takeStick p tag) (takeStick p tag))

/-- R93: one component clamped to ±SPEED_CAP. -/
def clampSteer (cap v : Int) : Int := max (-cap) (min v cap)

/-- R93: an accepted STEER gets no answer. -/
def steer (p : Port) (tag : Byte) (v : Vec3) (s : State) : State :=
  if p = .safety then s.close p tag .notPermitted 0 0
  else if s.carrier.mode ≠ .steer then s.close p tag .wrongMode 0 0
  else { s with carrier := { s.carrier with steer := Vec.map (clampSteer s.settings.speedCap) v, steerAge := 0 } }

def execSteer (p : Port) (tag : Byte) (v : Vec3) (s : State) : Result :=
  .next (s.take p tag (.steer p tag v) (fun t => steer p tag v (carrierReady t)))

/-- R95. -/
def releaseStick (p : Port) (tag : Byte) (s : State) : State :=
  if p = .safety then s.close p tag .notPermitted 0 0
  else if s.carrier.mode ≠ .steer then s.close p tag .wrongMode 0 0
  else (s.close p tag .ok 0 0).changeMode .hold .stickReleased

def execReleaseStick (p : Port) (tag : Byte) (s : State) : Result :=
  .next (s.take p tag (.releaseStick p tag) (releaseStick p tag))

/-! ## Parking (R96, R97) -/

/-- R96. -/
def park (p : Port) (tag : Byte) (s : State) : State :=
  if s.carrier.mode ≠ .hold then s.close p tag .wrongMode 0 0
  else if !s.carrier.lastAtRest then s.close p tag .notAtRest 0 0
  else (s.close p tag .ok 0 0).changeMode .parked .park

def execPark (p : Port) (tag : Byte) (s : State) : Result :=
  .next (s.take p tag (.park p tag) (fun t => park p tag (carrierReady t)))

/-- R97. -/
def unpark (p : Port) (tag : Byte) (s : State) : State :=
  if s.carrier.mode ≠ .parked then s.close p tag .wrongMode 0 0
  else (s.close p tag .ok 0 0).changeMode .hold .unpark

def execUnpark (p : Port) (tag : Byte) (s : State) : Result :=
  .next (s.take p tag (.unpark p tag) (unpark p tag))

/-! ## Clearing a halt (R108, R109) -/

/-- Table 5-5: the condition of one cause on one winch. -/
def clearCondition (s : State) (cause : Cause) (w : Winch) : Bool :=
  match cause with
  | .senseLost => !(winchFresh s.settings s.tension w)
  | .overload => decide (s.settings.tensionMax.get w ≤ (s.tension.winches.get w).tension)
  | .slack => decide ((s.tension.winches.get w).tension ≤ s.settings.tensionSlack.get w)
  | .encoder => decide (Config.illegalLimit ≤ (s.drums.get w).illegal)
  | .driveFault => (s.bus.drives.get w).state == some .fault
  | .linkLost => (s.bus.drives.get w).statusAge.any (fun a => decide (Config.longLimit ≤ a))
  | _ => false

/-- Table 5-5: the rows below ESTOP, in the table's order. -/
def clearRows : List Cause := [.senseLost, .overload, .slack, .encoder, .driveFault, .linkLost]

/-- The first winch on which a row's condition holds. -/
def clearRow (s : State) (cause : Cause) : Option (Cause × Winch) :=
  (winches.find? (clearCondition s cause)).map (fun w => (cause, w))

/-- R108 step 4: the first condition that refuses the clear, with its cause and winch. -/
def clearFault (s : State) : Option (Cause × Nat) :=
  if s.estop then some (.estop, 0) else (clearRows.findSome? (clearRow s)).map (fun x => (x.1, x.2.val))

/-- The codes of the halt causes (Table 11-8). -/
def Cause.code : Cause → Nat
  | .estop => 1
  | .request => 2
  | .overload => 3
  | .slack => 4
  | .senseLost => 5
  | .encoder => 6
  | .tracking => 7
  | .driveFault => 8
  | .linkLost => 9

/-- R109: the set and the first cause are cleared and the mode becomes HOLD. -/
def acceptClear (p : Port) (tag : Byte) (s : State) : State :=
  let previous := s.carrier.mode
  let s1 := { s with carrier := { s.carrier.toMode .hold with causes := [], first := none } }
  let s2 := (s1.close p tag .ok 0 0).notify (.halt .cleared none [] none s.carrier.poseLost)
  s2.modeNotice .cleared previous none

/-- R108. -/
def clearHalt (p : Port) (tag : Byte) (s : State) : State :=
  if p = .rig then s.close p tag .notPermitted 0 0
  else if !s.carrier.mode.isHalted then s.close p tag .wrongMode 0 0
  else if s.carrier.poseLost then s.close p tag .poseLost 0 0
  else if s.carrier.mode = .halted .stopping then s.close p tag .wrongMode 0 0
  else
    match clearFault s with
    | some (cause, w) => s.close p tag .haltActive cause.code w
    | none => acceptClear p tag s

def execClearHalt (p : Port) (tag : Byte) (s : State) : Result :=
  .next (s.take p tag (.clearHalt p tag) (clearHalt p tag))

end Sys2Proof.Machine
end

