-- ==== Sys2Proof/Machine/Drums.lean ====
section
/-! DEFINITION. The drum counters and the wind gauge input (chapter 8). -/

namespace Sys2Proof.Machine

/-! ## Transitions (R146, R147) -/

/-- R146: what a change of level on an encoder pair is. -/
inductive Turn where
  | forward
  | backward
  | illegal
  | unchanged
  deriving DecidableEq, Repr

/-- R146: the state that follows in the forward cycle (0,0) → (1,0) → (1,1) → (0,1) → (0,0). -/
def nextLevels : Levels → Levels
  | ⟨false, false⟩ => ⟨true, false⟩
  | ⟨true, false⟩ => ⟨true, true⟩
  | ⟨true, true⟩ => ⟨false, true⟩
  | ⟨false, true⟩ => ⟨false, false⟩

/-- R146. -/
def turnOf (old new : Levels) : Turn :=
  if new = old then .unchanged
  else if new = nextLevels old then .forward
  else if old = nextLevels new then .backward
  else .illegal

/-- R146: one transition at one drum counter; the count wraps at 32 bits. A change that leaves both levels as they were
is no transition: the model's choice (entry 31). -/
def Drum.turn (d : Drum) (levels : Levels) : Drum :=
  match turnOf d.levels levels with
  | .unchanged => d
  | .forward => { d with levels := levels, count := d.count + 1 }
  | .backward => { d with levels := levels, count := d.count - 1 }
  | .illegal => { d with levels := levels, illegal := min (d.illegal + 1) 255 }

/-- R146, R147: an illegal transition that leaves the count at 4 or more reports ENCODER while rigged. -/
def encoderTransition (w : Winch) (levels : Levels) (s : State) : State :=
  let d := (s.drums.get w).turn levels
  let s1 := { s with drums := s.drums.set w d }
  if turnOf (s.drums.get w).levels levels = .illegal && s.rigged && Config.illegalLimit ≤ d.illegal then
    s1.handFault .encoder (some w)
  else s1

def execEncoderTransition (w : Winch) (levels : Levels) (s : State) : Result := .next (encoderTransition w levels s)

/-- R147: every illegal-transition count becomes 0. -/
def execDrumSecondTick (s : State) : Result :=
  .next { s with drums := s.drums.map (fun d => { d with illegal := 0 }) }

/-! ## Measured length and tracking (R148, R149) -/

/-- R148: the measured length, absent without references. -/
def measuredLength (scale : Int) (d : Drum) : Option Int :=
  match d.countRef, d.lengthRef with
  | some n, some l => some (l + ((d.count - n).toInt * scale).tdiv 65536)
  | _, _ => none

/-- R149: the exceed count of one winch after its comparison. -/
def trackDrum (tolerance scale commanded : Int) (d : Drum) : Drum :=
  match measuredLength scale d with
  | none => d
  | some m =>
      if 1000 * tolerance < |m - commanded| then { d with exceed := min (d.exceed + 1) Config.protectLimit }
      else { d with exceed := 0 }

/-- R149: the comparison of one winch, with its report at 3. -/
def trackWinch (lengths : Quad Int) (s : State) (w : Winch) : State :=
  let d := trackDrum s.settings.trackTol (s.settings.drumScale.get w) (lengths.get w) (s.drums.get w)
  let s1 := { s with drums := s.drums.set w d }
  if d.exceed = Config.protectLimit then s1.handFault .tracking (some w) else s1

/-- R149: the tracking comparison at a published step result. The commanded lengths are those the path generator
holds. -/
def drumStep (s : State) : State :=
  if s.carrier.poseLost then { s with drums := s.drums.map (fun d => { d with exceed := 0 }) }
  else
    match s.path with
    | none => s
    | some p => winches.foldl (trackWinch p.lengths) s

/-- The drum counters take a published step result. -/
def takeDrumResult (s : State) : State :=
  match s.hands.stepDrum with
  | none => s
  | some _ =>
      let s1 := { s with hands := { s.hands with stepDrum := none } }
      if s1.rigged then drumStep s1 else s1

def execDrumStepResult (s : State) : Result := .next (takeDrumResult s)

/-! ## Wind (R152 to R155) -/

/-- R152: a pulse; a count at 65,535 stays there. -/
def execAnemometerPulse (s : State) : Result :=
  .next { s with wind := { s.wind with pulses := min (s.wind.pulses + 1) 65535 } }

/-- R138, R153: F = min(DERATE_FLOOR, SPEED_CAP). -/
def derateFloor (st : Settings) : Int := min st.derateFloor st.speedCap

/-- R153: the wind cap of a wind speed. -/
def windCapOf (st : Settings) (speed : Int) : Int :=
  if speed ≤ st.windFull then st.speedCap
  else if speed < st.windStop then
    max (st.speedCap * (st.windStop - speed) / (st.windStop - st.windFull)) (derateFloor st)
  else derateFloor st

/-- R154: the hold after a judgement. -/
def windHoldOf (st : Settings) (speed : Int) (hold : Bool) : Bool :=
  if hold then !(decide (speed ≤ st.windFull)) else decide (st.windStop ≤ speed)

/-- R155: the WIND notice, with the hold, the speed and the cap that stand. -/
def State.windNotice (s : State) (reason : WindReason) : State :=
  s.notify (.wind reason s.wind.hold s.wind.speed s.wind.cap s.settings.windFull s.settings.windStop)

/-- R152, R153, R154: the gate closes, the cap is formed and, while rigged, the hold is judged; a change sends its
notice and is handed to carrier control. -/
def windSecondTick (s : State) : State :=
  let speed : Int := s.wind.pulses * s.settings.windCmPerPulse
  let hold := if s.rigged then windHoldOf s.settings speed s.wind.hold else s.wind.hold
  let s1 := { s with wind := { pulses := 0, speed := speed, cap := windCapOf s.settings speed, hold := hold } }
  if hold = s.wind.hold then s1 else (s1.windNotice (if hold then .set else .cleared)).handWindChange hold

def execWindSecondTick (s : State) : Result := .next (windSecondTick s)

end Sys2Proof.Machine
end

