-- ==== Sys2Proof/Machine/Tension.lean ====
section
/-! DEFINITION. The tension front end (chapter 7): the lane path, silence, winch tensions, protection, the tension cap
and the lane check. -/

namespace Sys2Proof.Machine

/-! ## The lane path (R130 to R132) -/

/-- A number within 16 signed bits: beyond an end it becomes that end (R130, R131). -/
def clamp16 (n : Int) : Int := max (-32768) (min n 32767)

/-- R130: a word as a signed value. -/
def convertWord (format : LaneFormat) (word : BitVec 16) : Int :=
  match format with
  | .offset => (word.toNat : Int) - 32768
  | .twos => word.toInt

/-- R130: the gained value. -/
def gainedValue (gain x : Int) : Int := clamp16 ((x * (16 + gain)).tdiv 16)

/-- R131: the filter's coefficients, newest value first. -/
def filterOf (st : Settings) : List Int :=
  match st.filterMode with
  | .builtIn => List.replicate 12 Config.builtInCoeff
  | .custom => st.filterCoeff

/-- R131: the filtered output of a full history. -/
def filterOutput (coeffs history : List Int) : Int := clamp16 ((List.zipWith (· * ·) coeffs history).sum / 4096)

/-- R132: newtons. -/
def scaleOutput (scale out : Int) : Int := out * scale / 256

/-- R130: a gained value joins the history, and the count rises, from 15 to 12. -/
def LaneRec.push (r : LaneRec) (y : Int) : LaneRec :=
  { r with
    history := (y :: r.history).take 12
    samples := if r.samples = 15 then 12 else r.samples + 1 }

/-- R131: the history is emptied and the latest output made invalid. -/
def LaneRec.emptied (r : LaneRec) : LaneRec := { r with history := [], samples := 0, valid := false }

def State.setLane (s : State) (l : Lane) (r : LaneRec) : State :=
  { s with tension := { s.tension with lanes := s.tension.lanes.set l r } }

def State.setWinch (s : State) (w : Winch) (r : WinchRec) : State :=
  { s with tension := { s.tension with winches := s.tension.winches.set w r } }

/-- R142: the LANE notice of a change from `previous` to the state that stands. -/
def State.laneNotice (s : State) (l : Lane) (reason : LaneReason) (previous : LaneState) (words : Nat) : State :=
  s.notify (.lane reason l (s.tension.lanes.get l).state previous (s.settings.laneMap.get l) words)

/-! ## The tension cap (R138) -/

/-- R138: the cap that one winch sets, none when it sets none. -/
def winchCap (st : Settings) (w : Winch) (t : Int) : Option Int :=
  let warn := st.tensionWarn.get w
  let top := st.tensionMax.get w
  if t ≤ warn then none
  else if t < top then some (max (st.speedCap * (top - t) / (top - warn)) (derateFloor st))
  else some (derateFloor st)

/-- R138: the least winch cap, or SPEED_CAP. -/
def tensionCapOf (st : Settings) (t : Quad WinchRec) : Int :=
  (winches.filterMap (fun w => winchCap st w (t.get w).tension)).foldl min st.speedCap

/-- R138: the cap is formed while rigged and kept while OFFLINE. -/
def formTensionCap (s : State) : State :=
  if s.rigged then { s with tension := { s.tension with cap := tensionCapOf s.settings s.tension.winches } } else s

/-! ## Winch tension (R135 to R137) -/

/-- R135, R136: the tension and the flag from the cells that are fresh; none fresh keeps the tension. -/
def formWinch (tolerance : Int) (aFresh bFresh : Bool) (r : WinchRec) : WinchRec :=
  match aFresh, bFresh with
  | true, true =>
      if |r.cellA - r.cellB| ≤ tolerance then { r with tension := (r.cellA + r.cellB) / 2, flag := .pair }
      else { r with tension := max r.cellA r.cellB, flag := .disagree }
  | true, false => { r with tension := r.cellA, flag := .single }
  | false, true => { r with tension := r.cellB, flag := .single }
  | false, false => { r with flag := .none }

/-- The winch formed from its cells as they stand. -/
def reformWinch (s : State) (w : Winch) : State :=
  s.setWinch w (formWinch s.settings.disagreeTol (cellFresh s.settings s.tension w .a)
    (cellFresh s.settings s.tension w .b) (s.tension.winches.get w))

/-- R137: one protection count. -/
def protectCount (hit : Bool) (n : Nat) : Nat := if hit then min (n + 1) Config.protectLimit else 0

/-- R137: the protection counts of a winch, while rigged, with their reports. -/
def protectWinch (s : State) (w : Winch) : State :=
  if s.rigged then
    let r := s.tension.winches.get w
    let r' := { r with
      overload := protectCount (decide (s.settings.tensionMax.get w ≤ r.tension)) r.overload
      slack := protectCount (decide (r.tension ≤ s.settings.tensionSlack.get w)) r.slack }
    let s1 := s.setWinch w r'
    let s2 := if r'.overload = Config.protectLimit then s1.handFault .overload (some w) else s1
    if r'.slack = Config.protectLimit then s2.handFault .slack (some w) else s2
  else s

/-- R129: an output becomes the latest output of its cell. -/
def WinchRec.setCell (r : WinchRec) (c : Cell) (v : Int) : WinchRec :=
  match c with
  | .a => { r with cellA := v }
  | .b => { r with cellB := v }

/-- R135: an output update. -/
def outputUpdate (s : State) (w : Winch) (c : Cell) (v : Int) : State :=
  let s1 := s.setWinch w ((s.tension.winches.get w).setCell c v)
  formTensionCap (protectWinch (reformWinch s1 w) w)

/-- R136: a freshness update of a winch. -/
def freshnessUpdate (s : State) (w : Winch) : State :=
  let s1 := formTensionCap (reformWinch s w)
  if s1.rigged && (s1.tension.winches.get w).flag == .none then s1.handFault .senseLost (some w) else s1

/-- A freshness update of the winch that a mapping names, if it names one. -/
def freshnessOf (s : State) (mapping : Option CellName) : State :=
  match mapping with
  | none => s
  | some m => freshnessUpdate s m.winch

/-! ## The end of a check (R140, R141, R170) -/

/-- The port that holds the check of a lane in service. -/
def PortRec.checks (r : PortRec) (l : Lane) : Bool :=
  match r.service with
  | some v => v.work == .laneCheck l
  | none => false

/-- R170: the check of a lane leaves service at its port, and its CLOSE is placed in the answer queue. -/
def closeCheckAt (s : State) (p : Port) (l : Lane) (status : Status) (detail2 : Nat) : State :=
  match (s.port p).service with
  | some v => (s.setPort p { s.port p with service := none }).close p v.tag status l.val detail2
  | none => s

def closeCheck (s : State) (l : Lane) (status : Status) (detail2 : Nat) : State :=
  if s.rig.checks l then closeCheckAt s .rig l status detail2
  else if s.safety.checks l then closeCheckAt s .safety l status detail2
  else s

/-- R140: a check fails; `mark` is 0x80 for a silence expiry. -/
def failCheck (s : State) (l : Lane) (mark : Nat) : State :=
  let r := s.tension.lanes.get l
  let n := mark + (r.check.map Check.matched).getD 0
  let s1 := s.setLane l { r with state := .bad, watch := false, check := none }
  closeCheck (s1.laneNotice l .checkFailed .checking n) l .conflict n

/-- R140: the word matches. -/
def Check.admits (c : Check) (patterns : BitVec 16 × BitVec 16) (word : BitVec 16) : Bool :=
  match c.last with
  | none => word == patterns.1 || word == patterns.2
  | some last => word == (if last = patterns.1 then patterns.2 else patterns.1)

/-- R140: a sample taken by the check. -/
def checkSample (s : State) (l : Lane) (word : BitVec 16) : State :=
  let r := s.tension.lanes.get l
  let c := r.check.getD ⟨none, 0⟩
  if c.admits (s.settings.lanePattern.get l) word then
    let n := c.matched + 1
    if n = Config.checkWords then
      let s1 := s.setLane l { r with state := .good, watch := true, check := none }
      closeCheck (s1.laneNotice l .checkPassed .checking n) l .ok n
    else s.setLane l { r with watch := true, check := some ⟨some word, n⟩ }
  else failCheck s l 0

/-! ## Sample arrival (R130 to R135) -/

/-- R130 to R132, R135: a word taken into the history, with the output that it gives. -/
def historySample (s : State) (l : Lane) (word : BitVec 16) : State :=
  let r := s.tension.lanes.get l
  let st := s.settings
  let pushed := r.push (gainedValue (st.laneGain.get l) (convertWord (st.laneFormat.get l) word))
  let r1 := if r.state = .good then { pushed with watch := true } else pushed
  if r1.samples = 12 then
    let v := scaleOutput (st.laneScale.get l) (filterOutput (filterOf st) r1.history)
    let s1 := s.setLane l { r1 with latest := v, valid := true }
    match r.state, st.laneMap.get l with
    | .good, some m => outputUpdate s1 m.winch m.cell v
    | _, _ => s1
  else s.setLane l r1

/-- R134: a STALE lane is restored. -/
def restoreLane (s : State) (l : Lane) : State :=
  let r := s.tension.lanes.get l
  (s.setLane l { r.emptied with state := .good }).laneNotice l .restored .stale 0

def sampleArrival (l : Lane) (word : BitVec 16) (s : State) : State :=
  match (s.tension.lanes.get l).state with
  | .checking => checkSample s l word
  | .stale => historySample (restoreLane s l) l word
  | _ => historySample s l word

def execSampleArrival (l : Lane) (word : BitVec 16) (s : State) : Result := .next (sampleArrival l word s)

/-! ## Silence (R133) -/

/-- R133: an armed watch reaches its expiry. An idle watch has none (entry 14). -/
def silenceExpiry (l : Lane) (s : State) : State :=
  let r := s.tension.lanes.get l
  if r.watch then
    match r.state with
    | .good =>
        let s1 := s.setLane l { r with state := .stale, watch := false }
        freshnessOf (s1.laneNotice l .stale .good 0) (s.settings.laneMap.get l)
    | .checking => failCheck s l 0x80
    | _ => s
  else s

def execSilenceExpiry (l : Lane) (s : State) : Result := .next (silenceExpiry l s)

/-! ## LANE_CHECK, and what else ends or resets a lane (R139, R141, R13) -/

/-- The lane of a number that the range check has passed. -/
def laneOf (n : Nat) : Option Lane := if h : n < 8 then some ⟨n, h⟩ else none

/-- R139: the check starts. -/
def startCheck (p : Port) (tag : Byte) (l : Lane) (s : State) : State :=
  let r := s.tension.lanes.get l
  let s1 := s.setLane l { r.emptied with state := .checking, watch := true, check := some ⟨none, 0⟩ }
  let s2 := (s1.laneNotice l .checkStarted r.state 0).serve p tag (.laneCheck l)
  if r.state = .good then freshnessOf s2 (s.settings.laneMap.get l) else s2

/-- R139. -/
def laneCheck (p : Port) (tag : Byte) (n : Nat) (s : State) : State :=
  match laneOf n with
  | none => s.close p tag .outOfRange n 0
  | some l =>
      if s.rigged then s.close p tag .wrongMode n 0
      else if (s.settings.laneMap.get l).isNone then s.close p tag .conflict n 1
      else if (s.tension.lanes.get l).state = .checking then s.close p tag .conflict n 2
      else startCheck p tag l s

def execLaneCheck (p : Port) (tag : Byte) (n : Nat) (s : State) : Result :=
  .next (s.take p tag (.laneCheck p tag n) (laneCheck p tag n))

/-- R13, R136, R141: a SET of the lane's map, format, gain or pattern, already stored, returns the lane to UNCHECKED.
`served` is the mapping before the SET. -/
def settingReset (l : Lane) (served : Option CellName) (s : State) : State :=
  let r := s.tension.lanes.get l
  let s1 := s.setLane l { r.emptied with state := .unchecked, watch := false, check := none }
  let s2 := s1.laneNotice l .setting r.state 0
  match r.state with
  | .checking => closeCheck s2 l .ok 0xFF
  | .good => freshnessOf s2 served
  | _ => s2

/-- The winch that a GOOD lane serves. -/
def goodWinch (s : State) (l : Lane) : Option Winch :=
  if (s.tension.lanes.get l).state = .good then (s.settings.laneMap.get l).map CellName.winch else none

/-- R13, R131, R136: a SET of the filter empties the history of every lane; then each winch that a GOOD lane serves is
re-formed. No cell is fresh by then, so each keeps its tension (entry 13). -/
def filterReset (s : State) : State :=
  let s1 := { s with tension := { s.tension with lanes := s.tension.lanes.map LaneRec.emptied } }
  (lanes.filterMap (goodWinch s)).foldl freshnessUpdate s1

/-- R141, R171: the end of a check by ABORT at the tension front end. -/
def abortCheck (l : Lane) (s : State) : State :=
  let r := s.tension.lanes.get l
  let n := (r.check.map Check.matched).getD 0
  (s.setLane l { r with state := .unchecked, watch := false, check := none }).laneNotice l .aborted r.state n

end Sys2Proof.Machine
end

