-- ==== Sys2Proof/Machine/Bus.lean ====
section
/-! DEFINITION. The drive bus controller (chapter 9): the slots, the transmit arbiter, the ends of transmissions, the
period expiry and drive status. -/

namespace Sys2Proof.Machine

/-! ## Slots (R158, R159) -/

/-- R158: a set-point is written into its slot; what was pending there is replaced. -/
def Bus.write (b : Bus) (w : SlotWrite) : Bus := { b with slots := b.slots.set w.winch (some w.content) }

/-- R159: every pending set-point is withdrawn and the STOP slot is pending with the code. -/
def Bus.raiseStop (b : Bus) (first : Option Cause) : Bus := { b with slots := .all none, stopSlot := some first }

/-- The controller takes the oldest set-point write that stands. None is written while the part is OFFLINE (R163,
entry 12). -/
def takeWrite (s : State) : State :=
  match s.hands.writes with
  | [] => s
  | w :: rest =>
      let s1 := { s with hands := { s.hands with writes := rest } }
      if s1.rigged then { s1 with bus := s1.bus.write w } else s1

/-- Every set-point write that stands is taken, in order. -/
def takeWrites (s : State) : State := s.hands.writes.foldl (fun t _ => takeWrite t) s

def execSetpointWrite (s : State) : Result := .next (takeWrite s)

/-- R159: STOP is raised with the first cause that carrier control holds. A set-point that is written after it fills its
slot again. -/
def raiseStopNow (s : State) (first : Option Cause) : State := { s with bus := s.bus.raiseStop first }

/-- The controller takes a raise that stands. One taken after UNRIG has no effect: UNRIG raised STOP itself (R19,
entry 12). One that still stands when CLEAR_HALT is accepted is taken after it, with the first cause held then, which is
none: the model's choice (entry 29) where R99 and R103 give every STOP frame of a halt its first cause. -/
def takeRaise (s : State) : State :=
  match s.hands.raises with
  | [] => s
  | _ :: rest =>
      let s1 := { s with hands := { s.hands with raises := rest } }
      if s1.rigged then raiseStopNow s1 (s1.carrier.first.map Report.cause) else s1

def execRaiseStop (s : State) : Result := .next (takeRaise s)

/-- R163: the raises up to the last one of an entry, oldest first. -/
def dueRaises : List Raise → List Raise
  | [] => []
  | r :: rest => if (r :: rest).contains .entry then r :: dueRaises rest else []

/-- R163: before a period expiry that reads HALTED/STOPPED the controller takes the raise of the entry to it, so that the
STOP is pending together with the first keepalives and is sent before them. A raise once more (R105) behind it waits: it
may come before or after the expiry (entry 3). -/
def expiryReady (s : State) : State :=
  match s.carrier.mode with
  | .halted .stopped => (dueRaises s.hands.raises).foldl (fun t _ => takeRaise t) s
  | .offline | .hold | .steer | .travel | .parked | .halted .stopping => s

/-! ## Beginning a transmission (R157, R160) -/

/-- Table 11-7b: the flags byte, BRAKE in bit 0. -/
def brakeFlags (brake : Bool) : Byte := if brake then 1 else 0

/-- R157, Table 11-7b: the data bytes of a frame. -/
def TxContent.data : TxContent → List Byte
  | .stop first => [BitVec.ofNat 8 ((first.map Cause.code).getD 0)]
  | .setpoint _ c => putU32 c.length.toNat ++ [c.seq, brakeFlags c.brake, 0, 0]

/-- R157: the identifier of a frame. -/
def TxContent.identifier (base : Nat) : TxContent → Nat
  | .stop _ => base
  | .setpoint w _ => base + 1 + w.val

/-- R157: the frame formed with the settings as they stand. -/
def flightOf (st : Settings) (c : TxContent) : Flight :=
  { content := c, id := c.identifier st.busTxBase, rate := st.busRate, data := c.data }

/-- R160: the arbiter looks at the set-point slots in ascending number. A brake-clear set-point that may not be begun
is discarded, and the arbiter goes on. -/
def pickSlot (discard : Bool) (slots : Quad (Option Setpoint)) : List Winch → Quad (Option Setpoint) × Option TxContent
  | [] => (slots, none)
  | w :: rest =>
      match slots.get w with
      | none => pickSlot discard slots rest
      | some c =>
          if discard && !c.brake then pickSlot discard (slots.set w none) rest
          else (slots.set w none, some (.setpoint w c))

/-- R160: the arbiter begins a transmission when no frame is in flight and a slot is pending. -/
def transmitBegin (s : State) : State :=
  match s.bus.flight with
  | some _ => s
  | none =>
      match s.bus.stopSlot with
      | some first =>
          { s with bus := { s.bus with stopSlot := none, flight := some (flightOf s.settings (.stop first)) } }
      | none =>
          let picked := pickSlot s.carrier.mode.discardsSetpoints s.bus.slots winches
          { s with bus := { s.bus with slots := picked.1, flight := picked.2.map (flightOf s.settings) } }

def execTransmitBegin (s : State) : Result := .next (transmitBegin s)

/-! ## The end of a transmission (R161) -/

/-- R161: a returned or failed frame is pending again, or discarded. -/
def Bus.giveBack (b : Bus) : TxContent → Bus
  | .stop first => if b.stopSlot.isNone then { b with stopSlot := some first } else b
  | .setpoint w c =>
      if (b.slots.get w).isNone && b.stopSlot.isNone then { b with slots := b.slots.set w (some c) } else b

/-- The winch of a frame; none for STOP. -/
def TxContent.winch : TxContent → Option Winch
  | .stop _ => none
  | .setpoint w _ => some w

/-- R161: the failure count rises to at most 16, and its reaching 16 reports LINK_LOST while rigged. -/
def countFailure (c : TxContent) (s : State) : State :=
  let n := min (s.bus.failures + 1) Config.failureLimit
  let s1 := { s with bus := { s.bus with failures := n } }
  if n = Config.failureLimit && s.bus.failures ≠ Config.failureLimit && s.rigged then s1.handFault .linkLost c.winch
  else s1

/-- R161: with no frame in flight no transmission can end. -/
def transmissionEnd (outcome : TxOutcome) (s : State) : State :=
  match s.bus.flight with
  | none => s
  | some f =>
      let ended := { s.bus with flight := none }
      match outcome with
      | .acknowledged => { s with bus := { ended with failures := 0 } }
      | .lost => { s with bus := ended.giveBack f.content }
      | .failed => countFailure f.content { s with bus := ended.giveBack f.content }

def execTransmissionEnd (outcome : TxOutcome) (s : State) : Result := .next (transmissionEnd outcome s)

/-! ## Keepalives (R163) -/

/-- R163: the brake-set content for one winch. -/
def keepaliveWrite (p : Path) (w : Winch) : SlotWrite := ⟨w, ⟨p.lengths.get w, p.count, true⟩⟩

/-- R163: a keepalive that is due is written into each slot, and the countdown becomes 25. -/
def keepalive (s : State) : State :=
  if s.bus.keepaliveDue then
    let slots :=
      match s.path with
      | none => s.bus
      | some p => (winches.map (keepaliveWrite p)).foldl Bus.write s.bus
    { s with bus := { slots with keepaliveDue := false, countdown := Config.keepalivePeriods } }
  else s

/-- KEEPALIVE by itself: writes the keepalives that are due (entry 2). -/
def execKeepalive (s : State) : Result := .next (keepalive s)

/-- R163: the countdown at an expiry that reads PARKED or HALTED/STOPPED. `entering` says that the last class was
SHORT. -/
def Bus.countKeepalive (b : Bus) (entering : Bool) : Bus :=
  let n := if entering then 0 else b.countdown
  if n ≤ 1 then { b with countdown := n, keepaliveDue := true } else { b with countdown := n - 1 }

/-! ## The period expiry (R162) -/

/-- R162: a status age that is present rises by 1, up to 255. -/
def Drive.ageStatus (d : Drive) : Drive := { d with statusAge := d.statusAge.map (fun a => min (a + 1) 255) }

/-- R162: the ages of one drive at an expiry while rigged; a watch age that now equals the limit makes its report due. -/
def Drive.ageRigged (limit : Nat) (rearm : Bool) (d : Drive) : Drive :=
  let watch := min ((if rearm then 0 else d.watchAge) + 1) 255
  { d.ageStatus with watchAge := watch, timeoutDue := decide (watch = limit) }

/-- R162: a status timeout that is due is reported. -/
def statusTimeout (w : Winch) (s : State) : State :=
  let d := s.bus.drives.get w
  if d.timeoutDue then
    State.handFault { s with bus := { s.bus with drives := s.bus.drives.set w { d with timeoutDue := false } } } .linkLost
      (some w)
  else s

/-- STATUS_TIMEOUT by itself: reports the timeout that is due (entry 2). -/
def execStatusTimeout (w : Winch) (s : State) : Result := .next (statusTimeout w s)

/-- R162 steps 1 to 4 while rigged. -/
def Bus.expire (b : Bus) (mode : Mode) : Bus :=
  let cls := mode.timeoutClass
  { b with
    lastClass := cls
    drives := b.drives.map (Drive.ageRigged cls.limit (b.lastClass == .long && cls == .short)) }

/-- R162, R163: the controller ages its records and writes the keepalives that are due. -/
def ageAndKeep (s : State) : State :=
  if s.rigged then
    let mode := s.carrier.mode
    let counted := if mode.keepsBrakes then s.bus.countKeepalive (s.bus.lastClass == .short) else s.bus
    let s1 := keepalive { s with bus := counted.expire mode }
    winches.foldl (fun t w => statusTimeout w t) s1
  else { s with bus := { s.bus with drives := s.bus.drives.map Drive.ageStatus } }

/-- R162, R163: the controller takes a servo period expiry. -/
def drivePeriodExpiry (s : State) : State := ageAndKeep (expiryReady s)

def execDrivePeriodExpiry (s : State) : Result := .next (drivePeriodExpiry s)

/-! ## Drive status (R164) -/

/-- Table 11-8: the drive state codes. -/
def driveStateOf (code : Byte) : Option DriveState :=
  match code.toNat with
  | 0 => some .ready
  | 1 => some .running
  | 2 => some .braked
  | 3 => some .fault
  | _ => none

/-- The winch in the low two bits of an identifier. -/
def winchOfId (id : BitVec 11) : Winch := (id.extractLsb' 0 2).toFin

/-- R164: the winch, the state, the fault code and the echo of a frame that is accepted as a STATUS. -/
def acceptStatus (st : Settings) : CanFrame → Option (Winch × DriveState × Byte × Byte)
  | .extended _ _ => none
  | .standard id data =>
      match data with
      | state :: fault :: echo :: _ =>
          if (id ^^^ st.acceptCode) &&& st.acceptMask = 0 then
            (driveStateOf state).map (fun d => (winchOfId id, d, fault, echo))
          else none
      | _ => none

/-- R164. -/
def statusReceived (f : CanFrame) (s : State) : State :=
  match acceptStatus s.settings f with
  | none => s
  | some (w, state, fault, echo) =>
      let d : Drive :=
        { statusAge := some 0, watchAge := 0, state := some state, fault := fault, echo := echo, timeoutDue := false }
      let s1 := { s with bus := { s.bus with drives := s.bus.drives.set w d } }
      if state = .fault && s.rigged then s1.handFault .driveFault (some w) else s1

def execStatusReceived (f : CanFrame) (s : State) : Result := .next (statusReceived f s)

end Sys2Proof.Machine
end

