-- ==== Sys2Proof/Machine/Path.lean ====
section
/-! DEFINITION. The path generator (chapter 6): the seven stages of the servo step, the published step result and the
freeze. -/

namespace Sys2Proof.Machine

/-! ## Stage 1: the effective cap (R113) -/

/-- R113: the lesser of two caps with its factor; the earlier one keeps a tie. -/
def lesserCap (best next : Int × Factor) : Int × Factor := if next.1 < best.1 then next else best

/-- R113: the move cap, in TRAVEL with a RUNNING head that has a bound cap. -/
def moveCap (s : State) : Option Nat :=
  if s.carrier.mode = .travel then s.queue.running.bind (fun h => h.2.cap) else none

/-- R113: the effective cap and the limiting factor. -/
def effectiveCap (s : State) : Int × Factor :=
  let base : Int × Factor := (baseCap s.settings, .setting)
  let withMove :=
    match moveCap s with
    | none => base
    | some c => lesserCap base (c, .move)
  lesserCap (lesserCap withMove (s.wind.cap, .wind)) (s.tension.cap, .tension)

/-! ## Stage 2: the desired velocity (R114 to R117) -/

/-- R116: the running entry has arrived. -/
def hasArrived (accel : Int) (p : Path) (e : Entry) (b : Bound) : Bool :=
  let tolerance : Int := 1000 * e.tolerance
  decide (Vec.sq (Vec.sub b.point p.pose) ≤ tolerance * tolerance) && Vec.all (fun v => decide (|v| ≤ accel)) p.vel

/-- R117: a speed from which the carrier comes to rest at or short of a point at distance `r`. -/
def speedFits (accel eff r : Int) (speed : Nat) : Bool :=
  decide ((speed : Int) ≤ eff) && decide (4 * (speed : Int) + stopDistance accel speed ≤ r)

/-- R117: the approach speed. -/
def approachSpeed (accel eff r : Int) : Int := greatest (speedFits accel eff r) (eff.toNat.log2 + 1) 0

/-- R117: the velocity toward a point that lies at `delta`. -/
def approachVelocity (accel eff : Int) (delta : Vec3) : Vec3 :=
  let r : Int := ceilSqrt (Vec.sq delta).toNat
  let speed := approachSpeed accel eff r
  Vec.map (fun a => (speed * a).tdiv r) delta

/-- R115: the steer vector under the effective cap while its age is below 50. -/
def steerVelocity (c : Carrier) (eff : Int) : Vec3 :=
  if c.steerAge < Config.steerLife then limitMagnitude eff c.steer else Vec.zero

/-! ## Stages 3 to 6 (R118 to R122) -/

/-- R118: one component moved toward the desired one by at most A. -/
def limitComponent (accel v d : Int) : Int :=
  if d > v then min d (v + accel) else if d < v then max d (v - accel) else v

/-- The pose, the velocity, the stopping box, the verdict and the arrival flag that a step ends with. -/
structure Motion where
  pose : Vec3
  vel : Vec3
  box : Box
  verdict : Verdict
  arrival : Bool
  deriving DecidableEq, Repr

/-- R114, R116, R120: the carrier at rest at its pose. -/
def restAt (pose : Vec3) (arrival : Bool) : Motion :=
  { pose := pose, vel := Vec.zero, box := .point pose, verdict := .atRest, arrival := arrival }

/-- R120: the candidate step and its stopping box. -/
def candidate (stop : Int) (pose c : Vec3) : Motion :=
  let next := Vec.add pose (Vec.scale 4 c)
  { pose := next, vel := c, box := .span pose (Vec.map2 (stopPoint stop) next c), verdict := .accepted, arrival := false }

/-- R122: the brake. -/
def brake (stop : Int) (pose v : Vec3) : Motion :=
  let braked := Vec.map (brakeComponent stop) v
  let next := Vec.add pose (Vec.scale 4 braked)
  { pose := next, vel := braked, box := .span next (Vec.map2 (stopPoint stop) next braked), verdict := .braked,
    arrival := false }

/-- R118 to R122: stages 3 to 6 toward the desired velocity `d`. -/
def moveToward (st : Settings) (zones : List Zone) (p : Path) (d : Vec3) : Motion :=
  let c := limitMagnitude st.speedCap (Vec.map2 (limitComponent st.accelRate) p.vel d)
  if atRest c && atRest p.vel then restAt p.pose false
  else
    let m := candidate st.stopRate p.pose c
    if clearance zones m.box then m else brake st.stopRate p.pose p.vel

/-- R116, R117: TRAVEL with a RUNNING head. -/
def flyTo (s : State) (p : Path) (eff : Int) (e : Entry) (b : Bound) : Motion :=
  if hasArrived s.settings.accelRate p e b then restAt p.pose true
  else
    moveToward s.settings s.zones p
      (approachVelocity s.settings.accelRate eff (Vec.sub b.point p.pose))

/-- R114, Table 6-2: stages 2 to 6 by the mode. -/
def motionOf (s : State) (p : Path) (eff : Int) : Motion :=
  match s.carrier.mode with
  | .halted .stopped => restAt p.pose false
  | .halted .stopping => brake s.settings.stopRate p.pose p.vel
  | .steer => moveToward s.settings s.zones p (steerVelocity s.carrier eff)
  | .travel =>
      match s.queue.running with
      | some (e, b) => flyTo s p eff e b
      | none => moveToward s.settings s.zones p Vec.zero
  | .hold | .parked | .offline => moveToward s.settings s.zones p Vec.zero

/-! ## Stage 7 and the published result (R123, R124) -/

/-- Table 6-2: the modes in which stage 7 is made. -/
def Mode.writesSetpoints (m : Mode) : Bool := m != .offline && !m.keepsBrakes

/-- R123: the set-point of one winch, brake clear. -/
def stepWrite (p : Path) (w : Winch) : SlotWrite := ⟨w, ⟨p.lengths.get w, p.count, false⟩⟩

/-- R124: the result of a motion. -/
def Motion.result (m : Motion) : StepResult :=
  { pose := m.pose, vel := m.vel, box := m.box, verdict := m.verdict, atRest := atRest m.vel, arrival := m.arrival }

/-- R112 to R123: the path generator after the step. -/
def pathAfter (s : State) (p : Path) : Motion × Path :=
  let cap := effectiveCap s
  let m := motionOf s p cap.1
  (m,
    { pose := m.pose
      vel := m.vel
      box := m.box
      verdict := m.verdict
      lengths := if s.carrier.mode.writesSetpoints then lineLengths s.settings.anchor m.pose else p.lengths
      count := p.count + 1
      cap := cap.1
      factor := cap.2 })

/-- R124: the step result stands for its four takers. -/
def Hands.publish (h : Hands) (r : StepResult) (writes : List SlotWrite) : Hands :=
  { h with
    stepZone := some r
    stepQueue := some r
    stepCarrier := some r
    stepDrum := some r
    writes := h.writes ++ writes }

/-- R112: one servo step of a rigged part. -/
def stepPath (s : State) (p : Path) : State :=
  let after := pathAfter s p
  let writes := if s.carrier.mode.writesSetpoints then winches.map (stepWrite after.2) else []
  { s with path := some after.2, hands := s.hands.publish after.1.result writes }

/-- What the step before published is taken before the next step: its set-points, and its result at the four blocks
(R90, R123, R124, entry 3). -/
def settleStep (s : State) : State := takeDrumResult (takeCarrierResult (takeQueueResult (zoneReady (takeWrites s))))

/-- R112: the servo step is taken while rigged and not while OFFLINE. -/
def servoStep (s : State) : State :=
  if s.rigged then
    let s1 := settleStep s
    match s1.path with
    | none => s1
    | some p => stepPath s1 p
  else s

def execServoStep (s : State) : Result := .next (servoStep s)

/-! ## The freeze (R126) -/

/-- R126: a freeze that stands is taken; while OFFLINE it has no effect. -/
def freeze (s : State) : State :=
  if s.hands.freeze then
    let s1 := { s with hands := { s.hands with freeze := false } }
    if s1.rigged then { s1 with path := s1.path.map (fun p => { p with vel := Vec.zero }) } else s1
  else s

def execFreeze (s : State) : Result := .next (freeze s)

end Sys2Proof.Machine
end

