-- ==== Sys2Proof/Machine/Settings.lean ====
section
/-! DEFINITION. The settings store (chapter 1, section 1.4): SET and GET over Tables 1-2 and 1-3. -/

namespace Sys2Proof.Machine

/-! ## The tables of settings (Tables 1-2 and 1-3) -/

inductive SettingClass where
  | rig
  | live
  | telemetry
  deriving DecidableEq, Repr

/-- The class of a setting and its number of indices; none for an identifier that is not in the tables. A setting
without an index has the one index 0 (R7). -/
def settingKind : Nat → Option (SettingClass × Nat)
  | 0x01 | 0x02 | 0x03 | 0x04 | 0x05 => some (.rig, 4)
  | 0x06 | 0x07 | 0x08 | 0x09 => some (.rig, 1)
  | 0x10 | 0x11 | 0x12 | 0x13 | 0x14 => some (.rig, 8)
  | 0x15 => some (.rig, 1)
  | 0x16 => some (.rig, 12)
  | 0x20 | 0x21 | 0x22 | 0x23 | 0x28 => some (.rig, 1)
  | 0x40 => some (.live, 1)
  | 0x41 | 0x42 | 0x43 => some (.live, 4)
  | 0x44 | 0x45 | 0x46 | 0x47 => some (.live, 1)
  | 0x48 => some (.telemetry, 1)
  | _ => none

/-- R7 step 1: the class of a setting whose identifier and index are in the tables. -/
def settingClass (id index : Nat) : Option SettingClass :=
  match settingKind id with
  | some (c, count) => if index < count then some c else none
  | none => none

/-- A value kept when the number is in its range. -/
def within {α : Type} (lo hi n : Int) (a : α) : Option α := if lo ≤ n ∧ n ≤ hi then some a else none

/-- R8, Table 11-1: the mapping that LANE_MAP's numbers name; a first number of −1 is UNUSED, whatever the second. -/
def mappingOf (v : Vec3) : Option (Option CellName) :=
  if v.x = -1 then some none
  else if 0 ≤ v.x ∧ v.x ≤ 3 then
    let w : Winch := Fin.ofNat 4 v.x.toNat
    if v.y = 0 then some (some ⟨w, .a⟩) else if v.y = 1 then some (some ⟨w, .b⟩) else none
  else none

def laneFormatOf (n : Int) : Option LaneFormat := if n = 0 then some .offset else if n = 1 then some .twos else none

def filterModeOf (n : Int) : Option FilterMode := if n = 0 then some .builtIn else if n = 1 then some .custom else none

/-- R8: the settings with a rig setting's new value; none when the value is out of its range or no code. -/
def storeRig (st : Settings) (id index : Nat) (v : Vec3) : Option Settings :=
  let w : Winch := Fin.ofNat 4 index
  let l : Lane := Fin.ofNat 8 index
  let n := v.x
  match id with
  | 0x01 => if (positionFault v).isNone then some { st with anchor := st.anchor.set w v } else none
  | 0x02 => within 1000 250000 n { st with lenMin := st.lenMin.set w n }
  | 0x03 => within 1000 250000 n { st with lenMax := st.lenMax.set w n }
  | 0x04 => within (-16777215) 16777215 n { st with drumScale := st.drumScale.set w n }
  | 0x05 => within 500 15000 n { st with lineSpeed := st.lineSpeed.set w n }
  | 0x06 => within 100 10000 n { st with speedCap := n }
  | 0x07 => within 1 40 n { st with accelRate := n }
  | 0x08 => within 1 80 n { st with stopRate := n }
  | 0x09 => within 5 2000 n { st with trackTol := n }
  | 0x10 => (mappingOf v).map (fun m => { st with laneMap := st.laneMap.set l m })
  | 0x11 => (laneFormatOf n).map (fun f => { st with laneFormat := st.laneFormat.set l f })
  | 0x12 => within 0 15 n { st with laneGain := st.laneGain.set l n }
  | 0x13 => within 1 65535 n { st with laneScale := st.laneScale.set l n }
  | 0x14 =>
      if 0 ≤ v.x ∧ v.x ≤ 65535 ∧ 0 ≤ v.y ∧ v.y ≤ 65535 then
        some { st with lanePattern := st.lanePattern.set l (BitVec.ofInt 16 v.x, BitVec.ofInt 16 v.y) }
      else none
  | 0x15 => (filterModeOf n).map (fun m => { st with filterMode := m })
  | 0x16 => within (-2048) 2047 n { st with filterCoeff := st.filterCoeff.set index n }
  | 0x20 => if n = 250 ∨ n = 500 ∨ n = 1000 then some { st with busRate := n } else none
  | 0x21 => within 0 0x7FB n { st with busTxBase := n.toNat }
  | 0x22 => within 0 0x7FF n { st with acceptCode := BitVec.ofInt 11 n }
  | 0x23 => within 0 0x7FF n { st with acceptMask := BitVec.ofInt 11 n }
  | 0x28 => within 0 1000 n { st with windCmPerPulse := n }
  | _ => none

/-- R9, Table 1-3: the range into which a live setting's value is clamped. -/
def liveRange : Nat → Int × Int
  | 0x40 => (10, 100)
  | 0x41 => (0, 200000)
  | 0x42 => (0, 200000)
  | 0x43 => (0, 200000)
  | 0x44 => (100, 50000)
  | 0x45 => (0, 5000)
  | 0x46 => (0, 5000)
  | _ => (100, 2000)

def clampLive (id : Nat) (n : Int) : Int := max (liveRange id).1 (min n (liveRange id).2)

/-- R9: the three clamps of TELEMETRY_INTERVAL. -/
def clampInterval (n : Int) : Nat := if n ≤ 0 then 0 else if n < 5 then 5 else min n.toNat 250

/-- The settings with a live setting's new value. -/
def storeLive (st : Settings) (id index : Nat) (n : Int) : Settings :=
  let w : Winch := Fin.ofNat 4 index
  match id with
  | 0x40 => { st with capTrim := n }
  | 0x41 => { st with tensionSlack := st.tensionSlack.set w n }
  | 0x42 => { st with tensionWarn := st.tensionWarn.set w n }
  | 0x43 => { st with tensionMax := st.tensionMax.set w n }
  | 0x44 => { st with disagreeTol := n }
  | 0x45 => { st with windFull := n }
  | 0x46 => { st with windStop := n }
  | 0x47 => { st with derateFloor := n }
  | _ => st

/-- R10: TENSION_SLACK w < TENSION_WARN w < TENSION_MAX w. -/
def tensionOrdered (st : Settings) (w : Winch) : Bool :=
  decide (st.tensionSlack.get w < st.tensionWarn.get w) && decide (st.tensionWarn.get w < st.tensionMax.get w)

/-- R10: the ordering that the setting belongs to holds; the others belong to none. -/
def liveOrdered (st : Settings) (id index : Nat) : Bool :=
  match id with
  | 0x41 | 0x42 | 0x43 => tensionOrdered st (Fin.ofNat 4 index)
  | 0x45 | 0x46 => decide (st.windFull < st.windStop)
  | _ => true

/-! ## SET (R7 to R13) -/

/-- R13: what a rig SET that has been stored restarts. `before` is the lane map before it. -/
def rigEffects (id index : Nat) (before : Oct (Option CellName)) (s : State) : State :=
  let l : Lane := Fin.ofNat 8 index
  match id with
  | 0x10 | 0x11 | 0x12 | 0x14 => settingReset l (before.get l) s
  | 0x15 | 0x16 => filterReset s
  | _ => s

/-- R7, R8, R13: a rig setting. -/
def setRig (p : Port) (tag : Byte) (id index : Nat) (v : Vec3) (s : State) : State :=
  if s.rigged then s.close p tag .wrongMode id index
  else
    match storeRig s.settings id index v with
    | none => s.close p tag .outOfRange id index
    | some st => (rigEffects id index s.settings.laneMap { s with settings := st }).close p tag .ok id index

/-- R7, R9, R10: a live setting. -/
def setLive (p : Port) (tag : Byte) (id index : Nat) (n : Int) (s : State) : State :=
  if s.rigged && p == .rig then s.close p tag .notPermitted id index
  else
    let st := storeLive s.settings id index (clampLive id n)
    if liveOrdered st id index then
      State.close { s with settings := st } p tag (clampStatus (clampLive id n != n)) id index
    else s.close p tag .conflict id index

/-- R9, R174: a port's telemetry interval with its countdown; an interval of 0 clears the due flag. -/
def PortRec.setInterval (r : PortRec) (n : Nat) : PortRec :=
  { r with interval := n, countdown := n, due := if n = 0 then false else r.due }

/-- R7, R9: TELEMETRY_INTERVAL of the port that sent the SET. -/
def setInterval (p : Port) (tag : Byte) (id index : Nat) (n : Int) (s : State) : State :=
  (s.setPort p ((s.port p).setInterval (clampInterval n))).close p tag
    (clampStatus (decide ((clampInterval n : Int) ≠ n))) id index

/-- R7. -/
def setSetting (p : Port) (tag : Byte) (id index : Nat) (v : Vec3) (s : State) : State :=
  match settingClass id index with
  | none => s.close p tag .outOfRange id index
  | some .rig => setRig p tag id index v s
  | some .live => setLive p tag id index v.x s
  | some .telemetry => setInterval p tag id index v.x s

def execSet (p : Port) (tag : Byte) (id index : Nat) (v : Vec3) (s : State) : Result :=
  .next (s.take p tag (.set p tag id index v) (setSetting p tag id index v))

/-! ## GET (R11) -/

def LaneFormat.code : LaneFormat → Int
  | .offset => 0
  | .twos => 1

def FilterMode.code : FilterMode → Int
  | .builtIn => 0
  | .custom => 1

def Cell.code : Cell → Nat
  | .a => 0
  | .b => 1

/-- Table 11-1: a mapping as LANE_MAP's two numbers; UNUSED is −1 with an unused second number. -/
def mappingValue : Option CellName → Vec3
  | none => ⟨-1, 0, 0⟩
  | some m => ⟨m.winch.val, m.cell.code, 0⟩

/-- A setting of one number: the numbers that it does not use are 0 (R179). -/
def oneNumber (n : Int) : Vec3 := ⟨n, 0, 0⟩

/-- R11: the current value of a setting; the interval is that of the port that asks. -/
def settingValue (s : State) (p : Port) (id index : Nat) : Vec3 :=
  let st := s.settings
  let w : Winch := Fin.ofNat 4 index
  let l : Lane := Fin.ofNat 8 index
  match id with
  | 0x01 => st.anchor.get w
  | 0x02 => oneNumber (st.lenMin.get w)
  | 0x03 => oneNumber (st.lenMax.get w)
  | 0x04 => oneNumber (st.drumScale.get w)
  | 0x05 => oneNumber (st.lineSpeed.get w)
  | 0x06 => oneNumber st.speedCap
  | 0x07 => oneNumber st.accelRate
  | 0x08 => oneNumber st.stopRate
  | 0x09 => oneNumber st.trackTol
  | 0x10 => mappingValue (st.laneMap.get l)
  | 0x11 => oneNumber (st.laneFormat.get l).code
  | 0x12 => oneNumber (st.laneGain.get l)
  | 0x13 => oneNumber (st.laneScale.get l)
  | 0x14 => ⟨(st.lanePattern.get l).1.toNat, (st.lanePattern.get l).2.toNat, 0⟩
  | 0x15 => oneNumber st.filterMode.code
  | 0x16 => oneNumber (st.filterCoeff.getD index 0)
  | 0x20 => oneNumber st.busRate
  | 0x21 => oneNumber st.busTxBase
  | 0x22 => oneNumber st.acceptCode.toNat
  | 0x23 => oneNumber st.acceptMask.toNat
  | 0x28 => oneNumber st.windCmPerPulse
  | 0x40 => oneNumber st.capTrim
  | 0x41 => oneNumber (st.tensionSlack.get w)
  | 0x42 => oneNumber (st.tensionWarn.get w)
  | 0x43 => oneNumber (st.tensionMax.get w)
  | 0x44 => oneNumber st.disagreeTol
  | 0x45 => oneNumber st.windFull
  | 0x46 => oneNumber st.windStop
  | 0x47 => oneNumber st.derateFloor
  | 0x48 => oneNumber (s.port p).interval
  | _ => Vec.zero

/-- R11. -/
def getSetting (p : Port) (tag : Byte) (id index : Nat) (s : State) : State :=
  match settingClass id index with
  | none => s.close p tag .outOfRange id index
  | some _ => s.closeItem p tag (.setting id index (settingValue s p id index)) .ok 0 0

def execGet (p : Port) (tag : Byte) (id index : Nat) (s : State) : Result :=
  .next (s.take p tag (.get p tag id index) (getSetting p tag id index))

end Sys2Proof.Machine
end

