-- ==== Sys2Proof/Machine/Frames.lean ====
section
/-! DEFINITION. The frames that a port sends (chapter 11): the codes of Tables 11-8 to 11-10, the records, the bodies and
the envelope with its CRC (R167). -/

namespace Sys2Proof.Machine

/-! ## Codes (Tables 11-8 to 11-10) -/

def flagByte (b : Bool) : Byte := if b then 1 else 0

def Mode.code : Mode → Byte
  | .offline => 0
  | .hold => 1
  | .steer => 2
  | .travel => 3
  | .parked => 4
  | .halted _ => 5

def Mode.subCode : Mode → Byte
  | .halted .stopping => 1
  | .halted .stopped => 2
  | _ => 0

def Verdict.code : Verdict → Byte
  | .accepted => 0
  | .atRest => 1
  | .braked => 2

def Factor.code : Factor → Byte
  | .setting => 0
  | .move => 1
  | .wind => 2
  | .tension => 3

def ZoneKind.code : ZoneKind → Byte
  | .keepOut => 0
  | .keepIn => 1

def originCode : Port → Byte
  | .rig => 0
  | .safety => 1

def ZoneState.code : ZoneState → Byte
  | .pending => 0
  | .active => 1
  | .overdue => 2

def ZoneLock.code : ZoneLock → Byte
  | .opened => 0
  | .locked => 1
  | .fixed => 2

def MarkState.code : MarkState → Byte
  | .clear => 0
  | .blocked => 1

def Release.code : Release → Byte
  | .immediate => 0
  | .cue => 1

def EntryState.code : EntryState → Byte
  | .queued => 0
  | .armed => 1
  | .running => 2
  | .dwelling => 3

def LookAhead.code : LookAhead → Byte
  | .unchecked => 0
  | .clear => 1
  | .blocked => 2

def LaneState.code : LaneState → Byte
  | .unchecked => 0
  | .checking => 1
  | .good => 2
  | .bad => 3
  | .stale => 4

def SourceFlag.code : SourceFlag → Byte
  | .pair => 0
  | .disagree => 1
  | .single => 2
  | .none => 3

def DriveState.code : DriveState → Byte
  | .ready => 0
  | .running => 1
  | .braked => 2
  | .fault => 3

def EndReason.code : EndReason → Byte
  | .empty => 1
  | .drop => 2
  | .stall => 3
  | .cancel => 4
  | .clear => 5

/-- Table 5-2, counted from 1. -/
def ModeReason.code : ModeReason → Byte
  | .commit => 1
  | .unrig => 2
  | .run => 3
  | .endTravel => 4
  | .stop => 5
  | .stickTaken => 6
  | .stickReleased => 7
  | .wind => 8
  | .park => 9
  | .unpark => 10
  | .halt => 11
  | .escalated => 12
  | .stopped => 13
  | .cleared => 14

def HaltReason.code : HaltReason → Byte
  | .raised => 1
  | .cleared => 2

/-- Table 2-3, counted from 1. -/
def ZoneReason.code : ZoneReason → Byte
  | .added => 1
  | .activated => 2
  | .edited => 3
  | .request => 4
  | .lapsed => 5
  | .overdue => 6
  | .resolved => 7
  | .locked => 8
  | .unlocked => 9
  | .fixed => 10

/-- Table 3-4, counted from 1. -/
def MarkReason.code : MarkReason → Byte
  | .set => 1
  | .replaced => 2
  | .retired => 3
  | .blocked => 4
  | .cleared => 5

/-- Table 4-4, counted from 1. -/
def MoveReason.code : MoveReason → Byte
  | .added => 1
  | .armed => 2
  | .started => 3
  | .dropped => 4
  | .lookaheadBlocked => 5
  | .arrived => 6
  | .completed => 7
  | .stalled => 8
  | .returned => 9
  | .cancelled => 10

/-- Table 7-5, counted from 1. -/
def LaneReason.code : LaneReason → Byte
  | .setting => 1
  | .checkStarted => 2
  | .checkPassed => 3
  | .checkFailed => 4
  | .aborted => 5
  | .stale => 6
  | .restored => 7

def WindReason.code : WindReason → Byte
  | .set => 1
  | .cleared => 2
  | .unrig => 3

def QueueReason.code : QueueReason → Byte
  | .cleared => 1
  | .unrig => 2

/-- Table 11-10. -/
def Status.code : Status → Byte
  | .ok => 0x00
  | .clamped => 0x01
  | .deferred => 0x02
  | .aborted => 0x03
  | .unknownKind => 0x10
  | .badLength => 0x11
  | .outOfRange => 0x12
  | .notPermitted => 0x13
  | .wrongMode => 0x14
  | .busy => 0x15
  | .noRecord => 0x20
  | .tableFull => 0x21
  | .locked => 0x22
  | .inUse => 0x23
  | .conflict => 0x24
  | .targetBlocked => 0x25
  | .routeBlocked => 0x26
  | .queueFull => 0x27
  | .windHold => 0x28
  | .haltActive => 0x29
  | .poseLost => 0x2A
  | .estop => 0x2B
  | .notAtRest => 0x2C

/-! ## The envelope (R167) -/

/-- One bit of the CRC: polynomial 0x1021, not reflected. -/
def crcBit (c : BitVec 16) : BitVec 16 := if c.msb then (c <<< 1) ^^^ 0x1021 else c <<< 1

/-- One byte of the CRC, most significant bit first. -/
def crcByte (c : BitVec 16) (b : Byte) : BitVec 16 :=
  crcBit (crcBit (crcBit (crcBit (crcBit (crcBit (crcBit (crcBit (c ^^^ (b ++ (0 : BitVec 8))))))))))

/-- R167: the CRC, initial value 0xFFFF. -/
def crc (bytes : List Byte) : BitVec 16 := bytes.foldl crcByte 0xFFFF

/-- What the CRC covers: LEN, KIND, TAG and BODY. -/
def RawFrame.covered (f : RawFrame) : List Byte := BitVec.ofNat 8 f.body.length :: f.kind :: f.tag :: f.body

/-- R167: the bytes of a frame on the line. -/
def RawFrame.wire (f : RawFrame) : List Byte := 0xA5 :: (f.covered ++ put16 (crc f.covered))

/-! ## Records (Tables 11-3 to 11-5) -/

/-- Table 11-3. -/
def Zone.record (z : Zone) : List Byte :=
  putU8 z.number ++ [z.kind.code, originCode z.origin, z.state.code, z.lock.code] ++ putPosition z.least
    ++ putPosition z.greatest ++ putU16 z.margin ++ putU16 (z.lifetime.getD 0)

/-- Table 11-4; the label's bytes beyond its count are 0 (R179). -/
def Mark.record (m : Mark) : List Byte :=
  putU8 m.number ++ putPosition m.point ++ putU16 (m.speedCap.getD 0) ++ [m.state.code] ++ putU8 m.blocker
    ++ putU8 m.label.length ++ (m.label ++ List.replicate 16 0).take 16

def Target.kindCode : Target → Byte
  | .mark _ => 0
  | .point _ => 1

def Target.markNumber : Target → Nat
  | .mark n => n
  | .point _ => 0

def Target.pointOrZero : Target → Vec3
  | .mark _ => Vec.zero
  | .point p => p

/-- Table 11-5, with the position in the queue, none for a removed entry. -/
def Entry.record (e : Entry) (position : Option Nat) : List Byte :=
  putU16 e.id ++ putU8 (position.getD 0xFF) ++ [e.target.kindCode] ++ putU8 e.target.markNumber
    ++ [flagByte e.markRetired] ++ putPosition e.target.pointOrZero ++ putU16 (e.speedCap.getD 0)
    ++ putU16 e.tolerance ++ putU16 e.dwellMs ++ [e.release.code, e.state.code, flagByte e.bound.isSome]
    ++ putPosition ((e.bound.map Bound.point).getD Vec.zero) ++ putU16 ((e.bound.bind Bound.cap).getD 0)
    ++ [e.lookAhead.code] ++ putU32 e.eta ++ putU16 (if e.state = .dwelling then e.remaining else 0)
    ++ putU8 (if e.state = .running then e.stall else 0)

/-! ## Answers (R180, Table 11-2) -/

def Close.body (c : Close) : List Byte := [c.status.code] ++ putU8 c.detail1 ++ putU8 c.detail2

def Item.body : Item → List Byte
  | .setting id index v => [1] ++ putU8 id ++ putU8 index ++ putPosition v
  | .zone z => [2] ++ z.record
  | .mark m => [3] ++ m.record
  | .move e position => [4] ++ e.record (some position)

def closeFrame (tag : Byte) (c : Close) : RawFrame := ⟨0x81, tag, c.body⟩

def itemFrame (tag : Byte) (i : Item) : RawFrame := ⟨0x80, tag, i.body⟩

/-! ## Notices (R181, Table 11-6) -/

/-- R181: the cause of code n sets bit n − 1. -/
def causeSetBits (cs : List Cause) : BitVec 16 :=
  cs.foldl (fun acc c => acc ||| (1 <<< (c.code - 1) : BitVec 16)) 0

/-- R181: a cause and its winch, 0 and 0xFF for none. -/
def reportBytes (r : Option Report) : List Byte :=
  putU8 ((r.map (fun x => x.cause.code)).getD 0) ++ putU8 ((r.bind (fun x => x.winch)).elim 0xFF Fin.val)

/-- Table 11-8: the failure of a MOVE notice, with the route zone and code of R69. -/
def failureBytes : Option Failure → List Byte
  | none => [0, 0, 0]
  | some .targetBlocked => [1, 0, 0]
  | some (.routeBlocked zone code) => [2] ++ putU8 zone ++ putU8 code
  | some .markRetired => [3, 0, 0]

/-- The cause set, the first cause and the pose-lost flag. -/
def causeBytes (cs : List Cause) (first : Option Report) (poseLost : Bool) : List Byte :=
  put16 (causeSetBits cs) ++ reportBytes first ++ [flagByte poseLost]

/-- A mapping as winch and cell, the winch 0xFF when UNUSED. -/
def mappingBytes : Option CellName → List Byte
  | none => [0xFF, 0]
  | some m => putU8 m.winch.val ++ putU8 m.cell.code

/-- R181: the kind, the reason and the fields of Table 11-6. A LANE notice has the fields of R142 and of the table, and not the
latest output and the winch tensions that R129 names beside the lane state (entry 32). -/
def Notice.body : Notice → List Byte
  | .mode reason new previous queueReason cs first poseLost =>
      [1, reason.code, new.code, new.subCode, previous.code, previous.subCode, (queueReason.map EndReason.code).getD 0]
        ++ causeBytes cs first poseLost
  | .halt reason added cs first poseLost => [2, reason.code] ++ reportBytes added ++ causeBytes cs first poseLost
  | .zone reason z => [3, reason.code] ++ z.record
  | .mark reason previous m => [4, reason.code, (previous.map MarkState.code).getD 2] ++ m.record
  | .move reason failure count e position =>
      [5, reason.code] ++ failureBytes failure ++ putU8 count ++ e.record position
  | .lane reason l new previous mapping words =>
      [6, reason.code] ++ putU8 l.val ++ [new.code, previous.code] ++ mappingBytes mapping ++ putU8 words
  | .wind reason hold speed cap full stop =>
      [7, reason.code, flagByte hold] ++ putU32 speed.toNat ++ putU16 cap.toNat ++ putU16 full.toNat
        ++ putU16 stop.toNat
  | .queue reason removed => [8, reason.code] ++ putU8 removed

def noticeFrame (n : Notice) : RawFrame := ⟨0x90, 0, n.body⟩

/-! ## Telemetry (R175, R182) -/

/-- R148, R182: a measured length as its field; one beyond 32 bits is a free value (entry 9). -/
def lengthField (l : Int) : BitVec 32 := if fitsI32 l then BitVec.ofInt 32 l else Config.wideLength l

/-- What the path generator reports; all 0 while OFFLINE. -/
def pathBytes (s : State) : List Byte :=
  match s.rigged, s.path with
  | true, some p =>
      putPosition p.pose ++ putI16 p.vel.x ++ putI16 p.vel.y ++ putI16 p.vel.z ++ putPosition p.box.lo
        ++ putPosition p.box.hi ++ [p.verdict.code] ++ putU16 p.cap.toNat ++ [p.factor.code]
        ++ (p.lengths.toList.flatMap (fun l => putU32 l.toNat))
  | _, _ => List.replicate 62 0

/-- The measured lengths; all 0 while OFFLINE. -/
def measuredBytes (s : State) : List Byte :=
  if s.rigged then
    winches.flatMap (fun w =>
      put32 (((measuredLength (s.settings.drumScale.get w) (s.drums.get w)).map lengthField).getD 0))
  else List.replicate 16 0

def Drive.bytes (d : Drive) : List Byte :=
  [(d.state.map DriveState.code).getD 0xFF, d.fault, d.echo] ++ putU16 (d.statusAge.getD 0xFFFF)

/-- R182, Table 11-7a: the body of 145 bytes, `overflow` being the port's flag as it stands. R142 has the tension cap
reported too, and neither Table 10-3 nor Table 11-7a has a field for it: the model follows the tables (entry 30). So it does
for a lane's latest output, which R129 has reported and the tables do not hold (entry 32). -/
def telemetryBody (s : State) (overflow : Bool) : List Byte :=
  [s.carrier.mode.code, s.carrier.mode.subCode] ++ causeBytes s.carrier.causes s.carrier.first s.carrier.poseLost
    ++ [flagByte s.rigged] ++ pathBytes s ++ measuredBytes s
    ++ s.tension.winches.toList.flatMap (fun w => putI32 w.tension)
    ++ s.tension.winches.toList.map (fun w => w.flag.code) ++ s.tension.lanes.toList.map (fun l => l.state.code)
    ++ putU32 s.wind.speed.toNat ++ [flagByte s.wind.hold] ++ s.bus.drives.toList.flatMap Drive.bytes
    ++ putU16 ((s.queue.entries.head?.map Entry.id).getD 0) ++ putU8 s.queue.entries.length ++ putU8 s.zones.length
    ++ putU8 s.marks.length ++ [flagByte overflow]

def telemetryFrame (s : State) (overflow : Bool) : RawFrame := ⟨0x91, 0, telemetryBody s overflow⟩

end Sys2Proof.Machine
end

