-- ==== Sys2Proof/Machine/Ports.lean ====
section
/-! DEFINITION. The request ports (chapter 10): the receiver, the request stage, ABORT, the telemetry countdown and the
transmit arbiter. -/

namespace Sys2Proof.Machine

/-! ## The receiver (R168) -/

/-- R168: the position after TAG and after each body byte. -/
def bodyOrCrc (kind tag : Byte) (due : Nat) (got : List Byte) : Receiver :=
  if due = 0 then .crcLow ⟨kind, tag, got⟩ else .body kind tag due got

/-- R168: a good character in any receive state but CRC-HIGH. -/
def Receiver.next (b : Byte) : Receiver → Receiver
  | .hunting => if b = 0xA5 then .len else .hunting
  | .len => if b.toNat > Config.maxBody then .hunting else .kind b.toNat
  | .kind n => .tag n b
  | .tag n k => bodyOrCrc k b n []
  | .body k t due got => bodyOrCrc k t (due - 1) (got ++ [b])
  | .crcLow f => .crcHigh f b
  | .crcHigh _ _ => .hunting

/-- R168: the frame that a character completes: the second CRC byte with a CRC that matches. -/
def Receiver.completes (b : Byte) : Receiver → Option RawFrame
  | .crcHigh f low => if crc f.covered = b ++ low then some f else none
  | _ => none

/-- R168: a character; one with its stop bit missing discards the frame in progress. -/
def PortRec.character (r : PortRec) (b : Byte) (stopBit : Bool) : PortRec :=
  if stopBit then
    { r with
      receiver := r.receiver.next b
      completed :=
        match r.receiver.completes b with
        | some f => r.completed ++ [f]
        | none => r.completed }
  else { r with receiver := .hunting }

def execReceiveCharacter (p : Port) (b : Byte) (stopBit : Bool) (s : State) : Result :=
  .next (s.setPort p ((s.port p).character b stopBit))

/-- R168: more than 2 ms within a frame discards it; in HUNTING there is nothing to discard. -/
def execReceiveGap (p : Port) (s : State) : Result := .next (s.setPort p { s.port p with receiver := .hunting })

/-! ## The request stage (R169) -/

/-- R169 steps 4 and 5. -/
def passRequest (s : State) (p : Port) (tag : Byte) (c : Instr) : State :=
  match (s.port p).service with
  | some v =>
      if passesService c then s.setPort p { s.port p with passed := some c } else s.close p tag .busy v.work.kind 0
  | none => s.setPort p { s.port p with passed := some c }

/-- R169: one completed frame at the request stage. -/
def takeFrame (s : State) (p : Port) (f : RawFrame) : State :=
  if (s.port p).answers.length ≥ Config.maxAnswers then s
  else
    match decodeRequest p f with
    | .unknownKind => s.close p f.tag .unknownKind f.kind.toNat 0
    | .badLength => s.close p f.tag .badLength f.body.length f.kind.toNat
    | .request c => passRequest s p f.tag c

/-- R169: the stage takes the oldest completed frame. It waits while the request before it has not been taken by its
owner, since answers stand in the order the requests were taken (R172, entry 1). -/
def requestFrame (p : Port) (s : State) : State :=
  match (s.port p).passed, (s.port p).completed with
  | none, f :: rest => takeFrame (s.setPort p { s.port p with completed := rest }) p f
  | _, _ => s

def execRequestFrame (p : Port) (s : State) : Result := .next (requestFrame p s)

/-! ## ABORT (R171) -/

/-- The one-byte count of ITEMs that a listing sent; above 255 it is a free value (R44, R59, R85, R171; entry 9). -/
def countDetail (n : Nat) : Nat := if n < 256 then n else (Config.wideCount n).toNat

/-- R171: the request in service at the port is ended with ABORTED. -/
def endService (p : Port) (v : Service) (s : State) : State :=
  let s1 := s.setPort p { s.port p with service := none }
  match v.work with
  | .laneCheck l =>
      (abortCheck l s1).close p v.tag .aborted l.val (((s.tension.lanes.get l).check.map Check.matched).getD 0)
  | _ => s1.close p v.tag .aborted (countDetail v.sent) 0

/-- R171: ABORT's own CLOSE with OK follows. R171 gives its detail1 alone; its detail2 is 0 (entry 10). -/
def abort (p : Port) (tag : Byte) (s : State) : State :=
  match (s.port p).service with
  | none => s.close p tag .ok 0 0
  | some v => (endService p v s).close p tag .ok 1 0

def execAbort (p : Port) (tag : Byte) (s : State) : Result :=
  .next (s.take p tag (.abort p tag) (abort p tag))

/-! ## The telemetry countdown (R174) -/

/-- R174: a countdown at 0 is reloaded and the due flag set, unless the interval is 0. -/
def PortRec.telemetryDue (r : PortRec) : PortRec :=
  if r.interval ≠ 0 ∧ r.countdown = 0 then { r with countdown := r.interval, due := true } else r

/-- TELEMETRY_DUE by itself acts on a countdown that stands at 0 (entry 2). -/
def execTelemetryDue (p : Port) (s : State) : Result := .next (s.setPort p (s.port p).telemetryDue)

/-- R174: an expiry at a port; an interval of 0 does nothing. -/
def PortRec.expire (r : PortRec) : PortRec :=
  if r.interval = 0 then r else PortRec.telemetryDue { r with countdown := r.countdown - 1 }

def execPortPeriodExpiry (p : Port) (s : State) : Result := .next (s.setPort p (s.port p).expire)

/-! ## The transmit arbiter (R176) -/

/-- A frame with the port as its beginning leaves it. -/
abbrev Begun := RawFrame × PortRec

/-- Class 1: the next frame of the answer at the head of the answer queue (R172). -/
def answerFrame (r : PortRec) : Option Begun :=
  match r.answers with
  | [] => none
  | a :: rest =>
      match a.items with
      | [] => some (closeFrame a.tag a.close, { r with answers := rest })
      | i :: more => some (itemFrame a.tag i, { r with answers := { a with items := more } :: rest })

/-- Class 2: the oldest notice (R173). -/
def oldestNotice (r : PortRec) : Option Begun :=
  match r.notices with
  | [] => none
  | n :: rest => some (noticeFrame n, { r with notices := rest })

/-- R44, R59, R85: the next record of a listing with the listing's work after it; none for a lane check and at the end
of a listing. -/
def nextItem (s : State) : Work → Option (Item × Work)
  | .zones f c => (nextZone s.zones f c).map (fun z => (.zone z, .zones f z.number))
  | .marks f c => (nextMark s.marks f c).map (fun m => (.mark m, .marks f (some m.number)))
  | .queue c => (nextEntry s.queue.entries c).map (fun x => (.move x.1 x.2, .queue x.1.serial))
  | .laneCheck _ => none

/-- The work is a listing. -/
def Work.isListing : Work → Bool
  | .laneCheck _ => false
  | _ => true

/-- Class 3: the listing's next ITEM, or the CLOSE with OK that ends its service (R170). -/
def listingFrame (s : State) (r : PortRec) : Option Begun :=
  match r.service with
  | none => none
  | some v =>
      if v.work.isListing then
        match nextItem s v.work with
        | some (i, work) => some (itemFrame v.tag i, { r with service := some { v with work := work, sent := v.sent + 1 } })
        | none => some (closeFrame v.tag ⟨.ok, countDetail v.sent, 0⟩, { r with service := none })
      else none

/-- Class 4: the telemetry frame that is due. Forming it clears the overflow flag (R175), and beginning it the due
flag (R174). -/
def dueTelemetry (s : State) (r : PortRec) : Option Begun :=
  if r.due then some (telemetryFrame s r.overflow, { r with due := false, overflow := false }) else none

/-- R176: the first class that has a frame ready. -/
def nextFrame (s : State) (r : PortRec) : Option Begun :=
  answerFrame r <|> (oldestNotice r <|> (listingFrame s r <|> dueTelemetry s r))

/-- R176: the line is free, and the arbiter begins the next frame, if one is ready. -/
def portLineFree (p : Port) (s : State) : State :=
  match nextFrame s (s.port p) with
  | some (f, r) => s.setPort p { r with line := some f.wire }
  | none => s.setPort p { s.port p with line := none }

def execPortLineFree (p : Port) (s : State) : Result := .next (portLineFree p s)

end Sys2Proof.Machine
end

