-- ==== Sys2Proof/Machine/Rig.lean ====
section
/-! DEFINITION. The events that every block takes together: hard reset (R6), RIG_COMMIT (R14 to R17) and UNRIG (R18,
R19). -/

namespace Sys2Proof.Machine

/-- R6 and the reset rule of every chapter. The queue of commands is the model's own and is left alone. -/
def execHardReset (lines : ResetLines) (s : State) : Result :=
  .next { State.resetWith lines with pending := s.pending }

/-! ## The checks of RIG_COMMIT (Table 1-4, R15, R16) -/

/-- The pairs of anchors in the order of R15. -/
def anchorPairs : List (Winch × Winch) := [(0, 1), (0, 2), (0, 3), (1, 2), (1, 3), (2, 3)]

/-- Check 1, ANCHORS: the pair is closer than 1,000 mm. -/
def anchorsClose (st : Settings) (pair : Winch × Winch) : Bool :=
  decide (Vec.sq (Vec.sub (st.anchor.get pair.2) (st.anchor.get pair.1)) < 1000000)

/-- The first winch that fails a check. -/
def failingWinch (fails : Winch → Bool) : Option Nat := (winches.find? fails).map Fin.val

/-- Check 4, LENGTHS. -/
def lengthsFail (st : Settings) (w : Winch) : Bool :=
  !(decide (st.lenMin.get w < st.lenMax.get w)) || decide (st.drumScale.get w = 0)

/-- Check 5, first pass: no lane is mapped to the winch. -/
def winchUnmapped (st : Settings) (w : Winch) : Bool :=
  !(lanes.any (fun l => (st.laneMap.get l).any (fun m => m.winch == w)))

/-- Check 5, second pass: the lane shares its cell with a lower-numbered lane. -/
def laneShares (st : Settings) (l : Lane) : Bool :=
  (st.laneMap.get l).isSome && lanes.any (fun k => decide (k < l) && st.laneMap.get k == st.laneMap.get l)

/-- Check 5, third pass: the lane is mapped and not GOOD. -/
def laneNotGood (s : State) (l : Lane) : Bool :=
  (s.settings.laneMap.get l).isSome && (s.tension.lanes.get l).state != .good

/-- Check 5, LANES, with its index (R15). -/
def lanesFault (s : State) : Option Nat :=
  match failingWinch (winchUnmapped s.settings) with
  | some w => some w
  | none =>
      match lanes.find? (laneShares s.settings) with
      | some l => some (0x10 + l.val)
      | none => (lanes.find? (laneNotGood s)).map (fun l => 0x20 + l.val)

/-- Check 6, FILTER. -/
def filterPasses (st : Settings) : Bool :=
  st.filterMode == .builtIn || (decide (2048 ≤ st.filterCoeff.sum) && decide (st.filterCoeff.sum ≤ 8192))

/-- Check 9, POSE_RANGE (R16). -/
def poseOutOfRange (st : Settings) (pose : Vec3) (w : Winch) : Bool :=
  let d := squaredDistance (st.anchor.get w) pose
  decide (d < (1000 * st.lenMin.get w) * (1000 * st.lenMin.get w))
    || decide ((1000 * st.lenMax.get w) * (1000 * st.lenMax.get w) < d)

/-- Check 10, POSE_ZONE (R16). -/
def poseZone (zones : List Zone) (pose : Vec3) : Option Nat :=
  (zones.find? (fun z => z.keepsOut && z.expanded.holds pose)).map Zone.number

/-- Check 11, KEEPIN_RANGE (R16). -/
def keepInOutOfRange (s : State) : Option Nat :=
  (s.zones.find? (fun z =>
    z.kind == .keepIn && z.state == .active && (lineRangeFault s.settings z.shrunk).isSome)).map Zone.number

/-- Check 12, DRIVES (R16). -/
def driveFails (s : State) (w : Winch) : Bool :=
  let d := s.bus.drives.get w
  match d.statusAge with
  | none => true
  | some a => decide (Config.commitFresh ≤ a) || d.state == some .running || d.state == some .fault

/-- A check that has the index 0. -/
def plainCheck (passes : Bool) : Option Nat := if passes then none else some 0

/-- Table 1-4: the thirteen checks in order, each with the index it fails with. -/
def commitChecks (s : State) (pose : Vec3) : List (Option Nat) :=
  let st := s.settings
  [ (anchorPairs.find? (anchorsClose st)).map (fun x => 4 * x.1.val + x.2.val),
    plainCheck (decide (st.accelRate ≤ st.stopRate)),
    failingWinch (fun w => decide (st.lineSpeed.get w < st.speedCap)),
    failingWinch (lengthsFail st),
    lanesFault s,
    plainCheck (filterPasses st),
    plainCheck (st.acceptMask &&& 3 == 0),
    failingWinch (fun w => !(tensionOrdered st w)),
    failingWinch (poseOutOfRange st pose),
    poseZone s.zones pose,
    keepInOutOfRange s,
    failingWinch (driveFails s),
    plainCheck (!s.estop) ]

/-- R14: the number and the index of the first check that fails. -/
def commitFault (s : State) (pose : Vec3) : Option (Nat × Nat) :=
  ((commitChecks s pose).zipIdx 1).findSome? (fun x => x.1.map (fun index => (x.2, index)))

/-! ## The effect of RIG_COMMIT (R17, R89, R111, R145, R153, R165) -/

/-- R17: the path generator's state at an initial pose in µm. -/
def commitPath (st : Settings) (pose : Vec3) : Path where
  pose := pose
  vel := Vec.zero
  box := .point pose
  verdict := .atRest
  lengths := lineLengths st.anchor pose
  count := 0
  cap := baseCap st
  factor := .setting

/-- R17, R145: a drum counter at the commit. -/
def Drum.commit (d : Drum) (length : Int) : Drum :=
  { d with countRef := some d.count, lengthRef := some length, exceed := 0, illegal := 0 }

def commitDrums (drums : Quad Drum) (lengths : Quad Int) : Quad Drum :=
  ⟨drums.w0.commit lengths.w0, drums.w1.commit lengths.w1, drums.w2.commit lengths.w2, drums.w3.commit lengths.w3⟩

/-- R17, R89: carrier control at the commit. -/
def Carrier.commit (c : Carrier) : Carrier :=
  { c with
    mode := .hold
    causes := []
    first := none
    poseLost := false
    stickOwned := false
    steer := Vec.zero
    steerAge := Config.steerLife
    windMirror := false
    lastAtRest := true }

/-- R17, R138: the tension front end at the commit. -/
def Tension.commit (t : Tension) (st : Settings) : Tension :=
  let ws := t.winches.map (fun w => { w with overload := 0, slack := 0 })
  { t with winches := ws, cap := tensionCapOf st ws }

/-- R165: the drive bus controller at the commit. -/
def Bus.commit (b : Bus) : Bus :=
  { b with
    failures := 0
    lastClass := .short
    countdown := 0
    keepaliveDue := false
    drives := b.drives.map (fun d => { d with watchAge := 0, timeoutDue := false }) }

/-- R98, R99, R126: what was handed before the commit and is not yet taken has no effect after it (entry 12). -/
def Hands.commit (h : Hands) : Hands :=
  { h with
    stepZone := Option.none
    stepQueue := Option.none
    stepCarrier := Option.none
    stepDrum := Option.none
    writes := []
    raises := []
    freeze := false
    faults := []
    windChanges := [] }

/-- R17: the commit at an initial pose in µm. -/
def commitAt (pose : Vec3) (s : State) : State :=
  let path := commitPath s.settings pose
  { s with
    path := some path
    refBox := some path.box
    drums := commitDrums s.drums path.lengths
    tension := s.tension.commit s.settings
    wind := { s.wind with cap := windCapOf s.settings s.wind.speed }
    carrier := s.carrier.commit
    bus := s.bus.commit
    hands := s.hands.commit }

/-- R14. -/
def rigCommit (p : Port) (tag : Byte) (pose : Vec3) (s : State) : State :=
  if s.rigged then s.close p tag .wrongMode 0 0
  else
    match positionFault pose with
    | some axis => s.close p tag .outOfRange 0 axis
    | none =>
        match commitFault s (Vec.micro pose) with
        | some (check, index) => s.close p tag (if check = 13 then .estop else .conflict) check index
        | none => ((commitAt (Vec.micro pose) s).close p tag .ok 0 0).modeNotice .commit .offline none

def execRigCommit (p : Port) (tag : Byte) (pose : Vec3) (s : State) : Result :=
  .next (s.take p tag (.rigCommit p tag pose) (rigCommit p tag pose))

/-! ## UNRIG (R18, R19) -/

/-- R18: the refusal of an UNRIG, if it is refused. In HOLD the flag of the last step result is read (R90, entry 15). -/
def unrigFault (p : Port) (c : Carrier) : Option Status :=
  match p with
  | .rig => some .notPermitted
  | .safety =>
      match c.mode with
      | .offline => some .wrongMode
      | .hold => if c.lastAtRest then none else some .notAtRest
      | .parked => none
      | .halted .stopped => none
      | .steer | .travel | .halted .stopping => some .notAtRest

/-- R19: the record is a PENDING keep-out. -/
def Zone.waits (z : Zone) : Bool := z.kind == .keepOut && z.state == .pending

/-- R19: the record is an OVERDUE keep-in. -/
def Zone.lapsesAtUnrig (z : Zone) : Bool := z.kind == .keepIn && z.state == .overdue

/-- R19: the news of one record at UNRIG. -/
def unrigNews (z : Zone) : Option (ZoneReason × Zone) :=
  if z.waits then some (.activated, { z with state := .active })
  else if z.lapsesAtUnrig then some (.lapsed, z)
  else none

/-- R19, R48: the zone table at UNRIG. -/
def unrigZones (zones : List Zone) : ZoneWork where
  zones := (zones.filter (fun z => !z.lapsesAtUnrig)).map (fun z => if z.waits then { z with state := .active } else z)
  news := zones.filterMap unrigNews
  changed := (zones.filterMap unrigNews).map (fun n => n.2.number)

/-- R19, R89: carrier control at UNRIG. -/
def Carrier.unrig (c : Carrier) : Carrier :=
  { c.toMode .offline with causes := [], first := none, poseLost := false, windMirror := false }

/-- R19, R145: a drum counter at UNRIG. -/
def Drum.unrig (d : Drum) : Drum := { d with countRef := none, lengthRef := none, exceed := 0 }

/-- R19: every block but the zone table and the mark table. -/
def unrigBlocks (s : State) : State :=
  raiseStopNow
    { s with
      queue := { s.queue with entries := [], travelFlag := false }
      carrier := s.carrier.unrig
      path := none
      refBox := none
      drums := s.drums.map Drum.unrig
      wind := { s.wind with hold := false } }
    (s.carrier.first.map Report.cause)

/-- R19: the effect of UNRIG with its notices in order. -/
def unrigNow (s : State) : State :=
  let s1 := (unrigBlocks s).notify (.queue .unrig s.queue.entries.length)
  let s2 := s1.modeNotice .unrig s.carrier.mode none
  let s3 := if s.wind.hold then s2.windNotice .unrig else s2
  settleMarks (s3.applyZoneWork (unrigZones s3.zones))

/-- R18, R19. What the mark table has handed is taken at the queue before (R63, entry 3). -/
def unrig (p : Port) (tag : Byte) (s : State) : State :=
  match unrigFault p s.carrier with
  | some status => s.close p tag status 0 0
  | none => (unrigNow (queueReady s)).close p tag .ok 0 0

def execUnrig (p : Port) (tag : Byte) (s : State) : Result :=
  .next (s.take p tag (.unrig p tag) (fun t => unrig p tag (carrierReady t)))

end Sys2Proof.Machine
end

