-- ==== Sys2Proof/Machine/Dispatch.lean ====
section
/-! DEFINITION. `exec`: one arm per command, each the call of its meaning. -/

namespace Sys2Proof.Machine

def exec (i : Instr) (s : State) : Host.Outcome State Fault Refusal :=
  match i with
  | .hardReset lines => Sys2Proof.Machine.execHardReset lines s
  | .servoStep => Sys2Proof.Machine.execServoStep s
  | .setpointWrite => Sys2Proof.Machine.execSetpointWrite s
  | .zoneStepResult => Sys2Proof.Machine.execZoneStepResult s
  | .queueStepResult => Sys2Proof.Machine.execQueueStepResult s
  | .dwellEnd => Sys2Proof.Machine.execDwellEnd s
  | .carrierStepResult => Sys2Proof.Machine.execCarrierStepResult s
  | .drumStepResult => Sys2Proof.Machine.execDrumStepResult s
  | .zoneSecondTick => Sys2Proof.Machine.execZoneSecondTick s
  | .zoneLapse zone => Sys2Proof.Machine.execZoneLapse zone s
  | .drumSecondTick => Sys2Proof.Machine.execDrumSecondTick s
  | .windSecondTick => Sys2Proof.Machine.execWindSecondTick s
  | .windHoldChange => Sys2Proof.Machine.execWindHoldChange s
  | .anemometerPulse => Sys2Proof.Machine.execAnemometerPulse s
  | .encoderTransition winch levels => Sys2Proof.Machine.execEncoderTransition winch levels s
  | .sampleArrival lane word => Sys2Proof.Machine.execSampleArrival lane word s
  | .silenceExpiry lane => Sys2Proof.Machine.execSilenceExpiry lane s
  | .cueEdge => Sys2Proof.Machine.execCueEdge s
  | .estopActive level => Sys2Proof.Machine.execEstopActive level s
  | .faultReport => Sys2Proof.Machine.execFaultReport s
  | .freeze => Sys2Proof.Machine.execFreeze s
  | .raiseStop => Sys2Proof.Machine.execRaiseStop s
  | .drivePeriodExpiry => Sys2Proof.Machine.execDrivePeriodExpiry s
  | .statusTimeout winch => Sys2Proof.Machine.execStatusTimeout winch s
  | .keepalive => Sys2Proof.Machine.execKeepalive s
  | .transmitBegin => Sys2Proof.Machine.execTransmitBegin s
  | .transmissionEnd outcome => Sys2Proof.Machine.execTransmissionEnd outcome s
  | .statusReceived frame => Sys2Proof.Machine.execStatusReceived frame s
  | .travelBegun => Sys2Proof.Machine.execTravelBegun s
  | .travelEnded => Sys2Proof.Machine.execTravelEnded s
  | .endTravel => Sys2Proof.Machine.execEndTravel s
  | .changeInForceReport => Sys2Proof.Machine.execChangeInForceReport s
  | .retirementReport => Sys2Proof.Machine.execRetirementReport s
  | .replacementReport => Sys2Proof.Machine.execReplacementReport s
  | .stateChangeReport => Sys2Proof.Machine.execStateChangeReport s
  | .receiveCharacter port byte stopBit => Sys2Proof.Machine.execReceiveCharacter port byte stopBit s
  | .receiveGap port => Sys2Proof.Machine.execReceiveGap port s
  | .requestFrame port => Sys2Proof.Machine.execRequestFrame port s
  | .portLineFree port => Sys2Proof.Machine.execPortLineFree port s
  | .portPeriodExpiry port => Sys2Proof.Machine.execPortPeriodExpiry port s
  | .telemetryDue port => Sys2Proof.Machine.execTelemetryDue port s
  | .set port tag id index value => Sys2Proof.Machine.execSet port tag id index value s
  | .get port tag id index => Sys2Proof.Machine.execGet port tag id index s
  | .rigCommit port tag pose => Sys2Proof.Machine.execRigCommit port tag pose s
  | .unrig port tag => Sys2Proof.Machine.execUnrig port tag s
  | .laneCheck port tag lane => Sys2Proof.Machine.execLaneCheck port tag lane s
  | .zoneAdd port tag body => Sys2Proof.Machine.execZoneAdd port tag body s
  | .zoneEdit port tag body => Sys2Proof.Machine.execZoneEdit port tag body s
  | .zoneRetire port tag zone => Sys2Proof.Machine.execZoneRetire port tag zone s
  | .zoneLock port tag zone => Sys2Proof.Machine.execZoneLock port tag zone s
  | .zoneUnlock port tag zone => Sys2Proof.Machine.execZoneUnlock port tag zone s
  | .zoneFix port tag zone => Sys2Proof.Machine.execZoneFix port tag zone s
  | .zoneRead port tag zone => Sys2Proof.Machine.execZoneRead port tag zone s
  | .zoneList port tag filter code => Sys2Proof.Machine.execZoneList port tag filter code s
  | .markSet port tag body => Sys2Proof.Machine.execMarkSet port tag body s
  | .markHere port tag body => Sys2Proof.Machine.execMarkHere port tag body s
  | .markRetire port tag mark => Sys2Proof.Machine.execMarkRetire port tag mark s
  | .markRead port tag mark => Sys2Proof.Machine.execMarkRead port tag mark s
  | .markList port tag filter => Sys2Proof.Machine.execMarkList port tag filter s
  | .moveAdd port tag body => Sys2Proof.Machine.execMoveAdd port tag body s
  | .moveCancel port tag id => Sys2Proof.Machine.execMoveCancel port tag id s
  | .queueClear port tag => Sys2Proof.Machine.execQueueClear port tag s
  | .queueList port tag => Sys2Proof.Machine.execQueueList port tag s
  | .run port tag => Sys2Proof.Machine.execRun port tag s
  | .stop port tag => Sys2Proof.Machine.execStop port tag s
  | .takeStick port tag => Sys2Proof.Machine.execTakeStick port tag s
  | .steer port tag velocity => Sys2Proof.Machine.execSteer port tag velocity s
  | .releaseStick port tag => Sys2Proof.Machine.execReleaseStick port tag s
  | .park port tag => Sys2Proof.Machine.execPark port tag s
  | .unpark port tag => Sys2Proof.Machine.execUnpark port tag s
  | .halt port tag => Sys2Proof.Machine.execHalt port tag s
  | .clearHalt port tag => Sys2Proof.Machine.execClearHalt port tag s
  | .abort port tag => Sys2Proof.Machine.execAbort port tag s

end Sys2Proof.Machine
end

