-- ==== Sys2Proof/Machine/Timebase.lean ====
section
/-! DEFINITION. What comes about while no command waits (entry 4): the hand-offs that stand are put into the queue as
the commands that take them, and when none stands the timebase counts one servo period (R1). -/

namespace Sys2Proof.Machine

/-- The command when the condition holds. -/
def whenever (b : Bool) (c : Instr) : List Instr := if b then [c] else []

/-- The command that takes a hand-off of the travel channel (R72). -/
def TravelHand.command : TravelHand → Instr
  | .begun _ => .travelBegun
  | .ended => .travelEnded

/-- The command that takes a report of the mark table (Table 3-3). -/
def MarkReport.command : MarkReport → Instr
  | .retired _ => .retirementReport
  | .replaced _ => .replacementReport
  | .changed _ => .stateChangeReport

/-- The commands that take what one block has handed another. -/
def Hands.commands (h : Hands) : List Instr :=
  h.faults.map (fun _ => .faultReport) ++ whenever h.freeze .freeze ++ h.raises.map (fun _ => .raiseStop)
    ++ h.writes.map (fun _ => .setpointWrite) ++ whenever h.stepZone.isSome .zoneStepResult
    ++ whenever h.stepQueue.isSome .queueStepResult ++ whenever h.stepCarrier.isSome .carrierStepResult
    ++ whenever h.stepDrum.isSome .drumStepResult ++ h.changes.map (fun _ => .changeInForceReport)
    ++ h.markReports.map MarkReport.command ++ h.travel.map TravelHand.command ++ h.ends.map (fun _ => .endTravel)
    ++ h.windChanges.map (fun _ => .windHoldChange)

/-- R169, R176: the commands that stand at a port: the request passed, a completed frame, and an idle line with a frame
ready. -/
def portCommands (s : State) (p : Port) : List Instr :=
  let r := s.port p
  r.passed.toList ++ whenever (r.passed.isNone && !r.completed.isEmpty) (.requestFrame p)
    ++ whenever (r.line.isNone && (nextFrame s r).isSome) (.portLineFree p)

/-- R160: the bus interface is free and a slot is pending. -/
def busReady (b : Bus) : Bool := b.flight.isNone && (b.stopSlot.isSome || b.slots.toList.any Option.isSome)

/-- Everything that stands to be taken. -/
def standing (s : State) : List Instr :=
  s.hands.commands ++ portCommands s .rig ++ portCommands s .safety ++ whenever (busReady s.bus) .transmitBegin

/-- R1: the events of a servo period expiry. -/
def expiryCommands : List Instr := [.servoStep, .drivePeriodExpiry, .portPeriodExpiry .rig, .portPeriodExpiry .safety]

/-- R1: the events of a second tick. -/
def tickCommands : List Instr := [.zoneSecondTick, .drumSecondTick, .windSecondTick]

/-- R1: one servo period passes; every 250th expiry falls at a second tick. -/
def tickPeriod (s : State) : State :=
  if s.periods + 1 = Config.periodsPerTick then { s with periods := 0, pending := expiryCommands ++ tickCommands }
  else { s with periods := s.periods + 1, pending := expiryCommands }

/-- DESIGN CHOICE (entry 4): what a step does when no command waits. -/
def idle (s : State) : State :=
  let cs := standing s
  if cs.isEmpty then tickPeriod s else { s with pending := cs }

end Sys2Proof.Machine
end

