-- ==== Sys2Proof/Safety.lean ====
section
/-! DEFINITION. The terms in which the statements about the part are made: what a request and a notice leave at the
ports, which hand-offs stand, and what holds of every state that the part can be in. -/

namespace Sys2Proof.Machine

/-! ## What an event leaves at the ports -/

/-- The port once its request has been taken by its owner. -/
def PortRec.taken (r : PortRec) (c : Instr) : PortRec := if r.passed = some c then { r with passed := none } else r

/-- The port once notices have been queued to it, in order (R173). -/
def PortRec.heard (r : PortRec) (ns : List Notice) : PortRec := ns.foldl PortRec.queueNotice r

/-- The port with answers placed at the tail of its answer queue (R172). -/
def PortRec.answered (r : PortRec) (as : List Answer) : PortRec := { r with answers := r.answers ++ as }

/-- `s` after request `c` of port `p` has been taken, the answers placed at `p` and the notices queued to both ports;
nothing else differs. -/
def State.served (s : State) (p : Port) (c : Instr) (as : List Answer) (ns : List Notice) : State :=
  match p with
  | .rig => { s with rig := ((s.rig.taken c).answered as).heard ns, safety := s.safety.heard ns }
  | .safety => { s with rig := s.rig.heard ns, safety := ((s.safety.taken c).answered as).heard ns }

/-- `s` after notices have been queued to both ports; nothing else differs. -/
def State.told (s : State) (ns : List Notice) : State := { s with rig := s.rig.heard ns, safety := s.safety.heard ns }

/-- An answer that is a CLOSE alone. -/
def closing (tag : Byte) (status : Status) (detail1 detail2 : Nat) : Answer := ⟨tag, [], ⟨status, detail1, detail2⟩⟩

/-- An answer of one ITEM and a CLOSE. -/
def closingItem (tag : Byte) (item : Item) (status : Status) (detail1 detail2 : Nat) : Answer :=
  ⟨tag, [item], ⟨status, detail1, detail2⟩⟩

/-- The MODE notice of a change from `previous` to `c.mode`, with what `c` holds (R91). -/
def modeNews (reason : ModeReason) (c : Carrier) (previous : Mode) (queueReason : Option EndReason := none) : Notice :=
  .mode reason c.mode previous queueReason c.causes c.first c.poseLost

/-- The command reaches its block: it is no request, or its owner takes it (R169). -/
def State.admits (s : State) (c : Instr) : Prop := ∀ p, c.port? = some p → s.takes p c = true

/-! ## Hand-offs -/

/-- No report stands that the mark table or the move queue must take first: no change in force (R52) and no retirement
(R63, R84). -/
def State.marksSettled (s : State) : Bool :=
  s.hands.changes.isEmpty && !(s.hands.markReports.any MarkReport.retires)

/-- No report and no step result stands that the zone table or the mark table must take first (R52, R124). -/
def State.zonesSettled (s : State) : Bool := s.hands.changes.isEmpty && s.hands.stepZone.isNone

/-- Nothing of the step before stands (R90, R124). -/
def State.stepSettled (s : State) : Bool :=
  s.hands.changes.isEmpty && s.hands.writes.isEmpty && s.hands.stepZone.isNone && s.hands.stepQueue.isNone
    && s.hands.stepCarrier.isNone && s.hands.stepDrum.isNone

/-- No step result stands at carrier control that a request or a report must follow: none at all, or the part is in
HALTED/STOPPING, where R110 lets either come first, or OFFLINE, where the result has no effect. -/
def State.carrierSettled (s : State) : Prop :=
  s.hands.stepCarrier = none ∨ s.carrier.mode = .halted .stopping ∨ s.carrier.mode = .offline

/-- The events that the zone table takes after a published step result: its requests, and the second tick with its
lapses. -/
def isZoneEvent : Instr → Bool
  | .zoneAdd _ _ _ | .zoneEdit _ _ _ | .zoneRetire _ _ _ | .zoneLock _ _ _ | .zoneUnlock _ _ _ | .zoneFix _ _ _
  | .zoneRead _ _ _ | .zoneList _ _ _ _ | .zoneSecondTick | .zoneLapse _ => true
  | _ => false

/-- The requests to the mark table. -/
def isMarkRequest : Instr → Bool
  | .markSet _ _ _ | .markHere _ _ _ | .markRetire _ _ _ | .markRead _ _ _ | .markList _ _ _ => true
  | _ => false

/-- The events that carrier control takes after a published step result: the requests that read its flag or set the
age that it raises, and the reports of a halt cause (R90, R96, R102, R128). -/
def State.readsStepResult (s : State) : Instr → Bool
  | .steer _ _ _ | .park _ _ | .unrig _ _ | .halt _ _ => true
  | .faultReport => !s.hands.faults.isEmpty
  | .estopActive level => level && !s.estop
  | _ => false

/-- The events that reach the move queue. -/
def State.reachesQueue (s : State) : Instr → Bool
  | .moveAdd _ _ _ | .moveCancel _ _ _ | .queueClear _ _ | .cueEdge | .dwellEnd => true
  | .queueStepResult => s.hands.stepQueue.isSome
  | .travelBegun => match s.hands.travel with | .begun _ :: _ => true | _ => false
  | .travelEnded => match s.hands.travel with | .ended :: _ => true | _ => false
  | _ => false

/-! ## Moves -/

/-- R75: what a start binds for an entry and how its target is judged, by the mark as it stands or by the point. -/
def Entry.aims (e : Entry) (s : State) (um : Vec3) (cap : Option Nat) (verdict : MarkState) : Prop :=
  (∃ n m, e.target = .mark n ∧ markAt s.marks n = some m ∧
      um = ⟨1000 * m.point.x, 1000 * m.point.y, 1000 * m.point.z⟩ ∧
      cap = (match e.speedCap with | some c => some c | none => m.speedCap) ∧ verdict = m.state) ∨
    ∃ x, e.target = .point x ∧ um = ⟨1000 * x.x, 1000 * x.y, 1000 * x.z⟩ ∧ cap = e.speedCap ∧
      verdict = (markTest s.zones x).1

/-- R76: the look-ahead that an entry is given behind a head bound at `from_`: BLOCKED when its target is, or when the
route to it fails. -/
def Entry.foresees (e : Entry) (s : State) (from_ : Vec3) (look : LookAhead) : Prop :=
  ∃ um cap verdict, e.aims s um cap verdict ∧
    look = if verdict = .blocked ∨ routeFault s.zones from_ um ≠ none then .blocked else .clear

/-- R76: the notice of a look-ahead that changes to BLOCKED, of the entry behind the head among `count` entries. -/
def blockedNews (count : Nat) (e : Entry) (look : LookAhead) : List Notice :=
  if look = .blocked ∧ e.lookAhead ≠ .blocked then
    [.move .lookaheadBlocked none count { e with lookAhead := look } (some 1)]
  else []

/-- R75, R76: the start of head `e` with `rest` behind it. It fails on a BLOCKED target or route, and then the entry leaves
and the rest stay as they are; else it runs, and the entry behind it is given its look-ahead. `es` is the queue after it. -/
def HeadStarts (s : State) (e : Entry) (rest es : List Entry) (news : List Notice) (ends : Option EndReason) : Prop :=
  ∃ p b verdict, s.path = some p ∧ e.aims s b.point b.cap verdict ∧ (∀ x ∈ rest, x.serial ≠ e.serial) ∧
    let dropped := fun (why : Failure) => es = rest ∧ ends = some .drop ∧
      news = [.move .dropped (some why) rest.length { e with bound := some b } none]
    let e' := { e with state := .running, bound := some b, stall := 0 }
    let started := Notice.move .started none (rest.length + 1) e' (some 0)
    (verdict = .blocked ∧ dropped .targetBlocked) ∨
    (∃ zone code, verdict = .clear ∧ routeFault s.zones p.pose b.point = some (zone, code) ∧
      dropped (.routeBlocked zone code)) ∨
    (verdict = .clear ∧ routeFault s.zones p.pose b.point = none ∧ ends = none ∧
      ((rest = [] ∧ es = [e'] ∧ news = [started]) ∨
        ∃ f more look, rest = f :: more ∧ f.foresees s b.point look ∧ es = e' :: { f with lookAhead := look } :: more ∧
          news = started :: blockedNews (more.length + 2) f look))

/-- R74: the entries that are left while the travel flag is set: the first becomes the head, UNCHECKED, and is armed or
started by its release; none hands end travel. -/
def BecomesHead (s : State) (entries es : List Entry) (news : List Notice) (ends : Option EndReason) : Prop :=
  (entries = [] ∧ es = [] ∧ news = [] ∧ ends = some .empty) ∨
    ∃ e rest, entries = e :: rest ∧
      let head := { e with lookAhead := .unchecked }
      (e.release = .cue ∧ ends = none ∧ es = { head with state := .armed } :: rest ∧
          news = [.move .armed none (rest.length + 1) { head with state := .armed } (some 0)]) ∨
        (e.release = .immediate ∧ HeadStarts s head rest es news ends)

/-- The entries with the first UNCHECKED, as the head of a queue that no start follows. -/
def uncheckedFirst : List Entry → List Entry
  | [] => []
  | e :: rest => { e with lookAhead := .unchecked } :: rest

/-- R72: `s` after an event of the queue that leaves the entries `es` and what `hands` holds. Where `ends` gives a reason,
end travel is handed with the number of `q`, and the flag is cleared. -/
def State.queued (s : State) (q : MoveQueue) (hands : Hands) (es : List Entry) (ends : Option EndReason) : State :=
  { s with
    queue := { q with entries := es, travelFlag := q.travelFlag && ends.isNone }
    hands := { hands with ends := hands.ends ++ ends.toList.map (fun reason => ⟨q.lastBegun, reason⟩) } }

/-! ## Settings as Tables 1-2 and 1-3 give them -/

/-- Table 1-2: the range of each rig setting of one number in a range that restarts nothing. -/
def plainRange : Nat → Option (Int × Int)
  | 0x02 => some (1000, 250000)
  | 0x03 => some (1000, 250000)
  | 0x04 => some (-16777215, 16777215)
  | 0x05 => some (500, 15000)
  | 0x06 => some (100, 10000)
  | 0x07 => some (1, 40)
  | 0x08 => some (1, 80)
  | 0x09 => some (5, 2000)
  | 0x13 => some (1, 65535)
  | 0x21 => some (0, 2043)
  | 0x22 => some (0, 2047)
  | 0x23 => some (0, 2047)
  | 0x28 => some (0, 1000)
  | _ => none

/-- Table 1-2: of each rig setting that restarts nothing, whether a value is in its range or is one of its codes, and
what GET returns for it. -/
def plainRule (id : Nat) (v : Vec3) : Option (Bool × Vec3) :=
  match id with
  | 0x01 =>
      some (decide (-100000 ≤ v.x ∧ v.x ≤ 100000 ∧ -100000 ≤ v.y ∧ v.y ≤ 100000 ∧ 0 ≤ v.z ∧ v.z ≤ 80000), v)
  | 0x20 => some (decide (v.x = 250 ∨ v.x = 500 ∨ v.x = 1000), ⟨v.x, 0, 0⟩)
  | _ => (plainRange id).map (fun r => (decide (r.1 ≤ v.x ∧ v.x ≤ r.2), ⟨v.x, 0, 0⟩))

/-- Table 1-2: the settings after a SET that returns lane `l` to UNCHECKED. What stands beside a winch of −1 is ignored
(entry 17). -/
def laneSet (st : Settings) (id : Nat) (l : Lane) (v : Vec3) (st' : Settings) : Prop :=
  (id = 0x10 ∧ v.x = -1 ∧ st' = { st with laneMap := st.laneMap.set l none }) ∨
  (∃ w : Winch, id = 0x10 ∧ v.x = w.val ∧ v.y = 0 ∧ st' = { st with laneMap := st.laneMap.set l (some ⟨w, .a⟩) }) ∨
  (∃ w : Winch, id = 0x10 ∧ v.x = w.val ∧ v.y = 1 ∧ st' = { st with laneMap := st.laneMap.set l (some ⟨w, .b⟩) }) ∨
  (id = 0x11 ∧ v.x = 0 ∧ st' = { st with laneFormat := st.laneFormat.set l .offset }) ∨
  (id = 0x11 ∧ v.x = 1 ∧ st' = { st with laneFormat := st.laneFormat.set l .twos }) ∨
  (id = 0x12 ∧ 0 ≤ v.x ∧ v.x ≤ 15 ∧ st' = { st with laneGain := st.laneGain.set l v.x }) ∨
  (id = 0x14 ∧ 0 ≤ v.x ∧ v.x ≤ 65535 ∧ 0 ≤ v.y ∧ v.y ≤ 65535 ∧
    st' = { st with lanePattern := st.lanePattern.set l (BitVec.ofInt 16 v.x, BitVec.ofInt 16 v.y) })

/-- Table 1-2: the settings after a SET of the filter. -/
def filterSet (st : Settings) (id index : Nat) (v : Vec3) (st' : Settings) : Prop :=
  (id = 0x15 ∧ v.x = 0 ∧ st' = { st with filterMode := .builtIn }) ∨
  (id = 0x15 ∧ v.x = 1 ∧ st' = { st with filterMode := .custom }) ∨
  (id = 0x16 ∧ -2048 ≤ v.x ∧ v.x ≤ 2047 ∧ st' = { st with filterCoeff := st.filterCoeff.set index v.x })

/-! ## Frames as chapter 11 lays them out -/

/-- Chapter 11: a number as a field of `k` bytes, low byte first, a negative one in two's complement. -/
def bytesOf (k : Nat) (v : Int) : List Byte := (List.range k).map (fun i => BitVec.ofInt 8 (v / 256 ^ i))

/-- Fields in order, each with its count of bytes and its value. -/
abbrev Fields := List (Nat × Int)

/-- Groups of fields, each at its offset in a body. -/
abbrev Groups := List (Nat × Fields)

/-- The bytes of fields in order. -/
def packed (fields : Fields) : List Byte := fields.flatMap (fun f => bytesOf f.1 f.2)

/-- A triple as three fields of `k` bytes. -/
def tripleFields (k : Nat) (v : Vec3) : Fields := [(k, v.x), (k, v.y), (k, v.z)]

def natField (k n : Nat) : Nat × Int := (k, n)

def boolField (b : Bool) : Nat × Int := (1, if b then 1 else 0)

def codeField (c : Byte) : Nat × Int := (1, c.toNat)

/-- Table 11-3: the 33 bytes of a zone record. -/
def zoneFields (z : Zone) : Fields :=
  [natField 1 z.number, codeField z.kind.code, codeField (originCode z.origin), codeField z.state.code,
      codeField z.lock.code]
    ++ tripleFields 4 z.least ++ tripleFields 4 z.greatest
    ++ [natField 2 z.margin, natField 2 (match z.lifetime with | some t => t | none => 0)]

/-- Table 11-4: the 18 bytes of a mark record before its label. -/
def markFields (m : Mark) : Fields :=
  natField 1 m.number :: tripleFields 4 m.point
    ++ [natField 2 (match m.speedCap with | some c => c | none => 0), codeField m.state.code,
      natField 1 m.blocker, natField 1 m.label.length]

/-- Table 11-5: the 49 bytes of a move record. -/
def moveFields (e : Entry) (position : Option Nat) : Fields :=
  [natField 2 e.id, natField 1 (match position with | some i => i | none => 0xFF)]
    ++ ((match e.target with
      | .mark n => [(1, 0), natField 1 n, boolField e.markRetired] ++ tripleFields 4 ⟨0, 0, 0⟩
      | .point x => [(1, 1), (1, 0), boolField e.markRetired] ++ tripleFields 4 x) : Fields)
    ++ [natField 2 (match e.speedCap with | some c => c | none => 0), natField 2 e.tolerance, natField 2 e.dwellMs,
      codeField e.release.code, codeField e.state.code]
    ++ ((match e.bound with
      | some b => (1, 1) :: tripleFields 4 b.point ++ [natField 2 (match b.cap with | some c => c | none => 0)]
      | none => (1, 0) :: tripleFields 4 ⟨0, 0, 0⟩ ++ [(2, 0)]) : Fields)
    ++ [codeField e.lookAhead.code, natField 4 e.eta, natField 2 (if e.state = .dwelling then e.remaining else 0),
      natField 1 (if e.state = .running then e.stall else 0)]

/-- R181: a cause with its winch, 0 for no cause and 0xFF for no winch. -/
def reportFields : Option Report → Fields
  | none => [(1, 0), (1, 0xFF)]
  | some ⟨c, none⟩ => [natField 1 c.code, (1, 0xFF)]
  | some ⟨c, some w⟩ => [natField 1 c.code, natField 1 w.val]

/-- R181: a cause set, in which the cause of code n is the bit n − 1, with the first cause and the pose-lost flag. -/
def causeFields (cs : List Cause) (first : Option Report) (poseLost : Bool) : Fields :=
  let bit := fun c : Cause => if c ∈ cs then (2 ^ (c.code - 1) : Int) else 0
  (2, bit .estop + bit .request + bit .overload + bit .slack + bit .senseLost + bit .encoder + bit .tracking
    + bit .driveFault + bit .linkLost) :: (reportFields first ++ [boolField poseLost])

/-- Table 11-6: the fields of a notice before the label of a MARK notice. -/
def noticeFields : Notice → Fields
  | .mode reason new previous queueReason cs first poseLost =>
      [(1, 1), codeField reason.code, codeField new.code, codeField new.subCode, codeField previous.code,
        codeField previous.subCode, (match queueReason with | some r => codeField r.code | none => (1, 0))]
        ++ causeFields cs first poseLost
  | .halt reason added cs first poseLost =>
      [(1, 2), codeField reason.code] ++ reportFields added ++ causeFields cs first poseLost
  | .zone reason z => [(1, 3), codeField reason.code] ++ zoneFields z
  | .mark reason previous m =>
      [(1, 4), codeField reason.code, (match previous with | some st => codeField st.code | none => (1, 2))]
        ++ markFields m
  | .move reason failure count e position =>
      [(1, 5), codeField reason.code]
        ++ ((match failure with
          | none => [(1, 0), (1, 0), (1, 0)]
          | some .targetBlocked => [(1, 1), (1, 0), (1, 0)]
          | some (.routeBlocked zone code) => [(1, 2), natField 1 zone, natField 1 code]
          | some .markRetired => [(1, 3), (1, 0), (1, 0)]) : Fields)
        ++ [natField 1 count] ++ moveFields e position
  | .lane reason l new previous mapping words =>
      [(1, 6), codeField reason.code, natField 1 l.val, codeField new.code, codeField previous.code]
        ++ ((match mapping with
          | some ⟨w, cell⟩ => [natField 1 w.val, (1, if cell = .a then 0 else 1)]
          | none => [(1, 0xFF), (1, 0)]) : Fields)
        ++ [natField 1 words]
  | .wind reason hold speed cap full stop =>
      [(1, 7), codeField reason.code, boolField hold, (4, max speed 0), (2, max cap 0), (2, max full 0), (2, max stop 0)]
  | .queue reason removed => [(1, 8), codeField reason.code, natField 1 removed]

/-- R179, R180: the body of an ITEM is its type and the fields of Table 11-2, the label of a mark filled up with zeros. -/
def Item.laidOut : Item → Prop
  | .setting id index v =>
      Item.body (.setting id index v) = packed ((1, 1) :: natField 1 id :: natField 1 index :: tripleFields 4 v)
  | .zone z => Item.body (.zone z) = packed ((1, 2) :: zoneFields z)
  | .mark m => m.label.length ≤ 16 →
      Item.body (.mark m) = packed ((1, 3) :: markFields m) ++ m.label ++ List.replicate (16 - m.label.length) 0
  | .move e position => Item.body (.move e position) = packed ((1, 4) :: moveFields e (some position))

/-- R179, R181: the body of a notice is the fields of Table 11-6, the label of a mark filled up with zeros. -/
def Notice.laidOut (n : Notice) : Prop :=
  match n with
  | .mark _ _ m => m.label.length ≤ 16 →
      n.body = packed (noticeFields n) ++ m.label ++ List.replicate (16 - m.label.length) 0
  | .mode _ _ _ _ _ _ _ | .halt _ _ _ _ _ | .zone _ _ | .move _ _ _ _ _ | .lane _ _ _ _ _ _ | .wind _ _ _ _ _ _
  | .queue _ _ => n.body = packed (noticeFields n)

/-- Table 11-7a: the fields of a telemetry frame while the part is rigged, each group at its offset. A measured length
beyond 32 bits is a free value (entry 9). -/
def flightFields (s : State) (p : Path) : Groups :=
  let measured := fun (w : Winch) =>
    match measuredLength (s.settings.drumScale.get w) (s.drums.get w) with
    | some l => if -2147483648 ≤ l ∧ l ≤ 2147483647 then l else (Config.wideLength l).toInt
    | none => 0
  [(8, tripleFields 4 p.pose), (20, tripleFields 2 p.vel), (26, tripleFields 4 p.box.lo ++ tripleFields 4 p.box.hi),
    (50, [codeField p.verdict.code]), (51, [(2, max p.cap 0)]), (53, [codeField p.factor.code]),
    (54, winches.map (fun w => (4, max (p.lengths.get w) 0))), (70, winches.map (fun w => (4, measured w)))]

/-- Table 11-7a: the fields of a telemetry frame in every mode, each group at its offset. -/
def commonFields (s : State) (overflow : Bool) : Groups :=
  let head := match s.queue.entries with | e :: _ => e.id | [] => 0
  let drive := fun d : Drive =>
    ([(match d.state with | some st => codeField st.code | none => (1, 0xFF)), codeField d.fault, codeField d.echo,
      natField 2 (match d.statusAge with | some a => a | none => 0xFFFF)] : Fields)
  [(0, [codeField s.carrier.mode.code, codeField s.carrier.mode.subCode]),
    (2, causeFields s.carrier.causes s.carrier.first s.carrier.poseLost), (7, [boolField s.rigged]),
    (86, winches.map (fun w => (4, (s.tension.winches.get w).tension))),
    (102, winches.map (fun w => codeField (s.tension.winches.get w).flag.code)),
    (106, lanes.map (fun l => codeField (s.tension.lanes.get l).state.code)), (114, [(4, max s.wind.speed 0)]),
    (118, [boolField s.wind.hold]), (119, winches.flatMap (fun w => drive (s.bus.drives.get w))), (139, [natField 2 head]),
    (141, [natField 1 s.queue.entries.length, natField 1 s.zones.length, natField 1 s.marks.length, boolField overflow])]

/-- The body has each group of fields at its offset. -/
def carries (body : List Byte) (groups : Groups) : Prop :=
  ∀ g ∈ groups, (body.drop g.1).take (packed g.2).length = packed g.2

/-- R175, R182, Table 11-7a: a body of 145 bytes; while OFFLINE what the path generator and the drum counters report is 0. -/
def telemetryLaidOut (s : State) (overflow : Bool) : Prop :=
  let body := telemetryBody s overflow
  body.length = 145 ∧ carries body (commonFields s overflow) ∧
    (∀ p, s.rigged = true → s.path = some p → carries body (flightFields s p)) ∧
    (s.rigged = false → (body.drop 8).take 78 = List.replicate 78 0)

/-- Tables 11-8 and 11-10 and section 11.8: the codes of the enumerated fields that the part sends. -/
def codesListed : Prop :=
  [Mode.offline, .hold, .steer, .travel, .parked, .halted .stopping, .halted .stopped].map
      (fun m => (m.code.toNat, m.subCode.toNat)) = [(0, 0), (1, 0), (2, 0), (3, 0), (4, 0), (5, 1), (5, 2)] ∧
    [Cause.estop, .request, .overload, .slack, .senseLost, .encoder, .tracking, .driveFault, .linkLost].map Cause.code
      = [1, 2, 3, 4, 5, 6, 7, 8, 9] ∧
    [ModeReason.commit, .unrig, .run, .endTravel, .stop, .stickTaken, .stickReleased, .wind, .park, .unpark, .halt,
      .escalated, .stopped, .cleared].map ModeReason.code = [1, 2, 3, 4, 5, 6, 7, 8, 9, 10, 11, 12, 13, 14] ∧
    [HaltReason.raised, .cleared].map HaltReason.code = [1, 2] ∧
    [WindReason.set, .cleared, .unrig].map WindReason.code = [1, 2, 3] ∧
    [QueueReason.cleared, .unrig].map QueueReason.code = [1, 2] ∧
    [EndReason.empty, .drop, .stall, .cancel, .clear].map EndReason.code = [1, 2, 3, 4, 5] ∧
    [ZoneReason.added, .activated, .edited, .request, .lapsed, .overdue, .resolved, .locked, .unlocked, .fixed].map
      ZoneReason.code = [1, 2, 3, 4, 5, 6, 7, 8, 9, 10] ∧
    [MarkReason.set, .replaced, .retired, .blocked, .cleared].map MarkReason.code = [1, 2, 3, 4, 5] ∧
    [MoveReason.added, .armed, .started, .dropped, .lookaheadBlocked, .arrived, .completed, .stalled, .returned,
      .cancelled].map MoveReason.code = [1, 2, 3, 4, 5, 6, 7, 8, 9, 10] ∧
    [LaneReason.setting, .checkStarted, .checkPassed, .checkFailed, .aborted, .stale, .restored].map LaneReason.code
      = [1, 2, 3, 4, 5, 6, 7] ∧
    [Verdict.accepted, .atRest, .braked].map Verdict.code = [0, 1, 2] ∧
    [Factor.setting, .move, .wind, .tension].map Factor.code = [0, 1, 2, 3] ∧
    [ZoneKind.keepOut, .keepIn].map ZoneKind.code = [0, 1] ∧ [Port.rig, .safety].map originCode = [0, 1] ∧
    [ZoneState.pending, .active, .overdue].map ZoneState.code = [0, 1, 2] ∧
    [ZoneLock.opened, .locked, .fixed].map ZoneLock.code = [0, 1, 2] ∧
    [MarkState.clear, .blocked].map MarkState.code = [0, 1] ∧ [Release.immediate, .cue].map Release.code = [0, 1] ∧
    [EntryState.queued, .armed, .running, .dwelling].map EntryState.code = [0, 1, 2, 3] ∧
    [LookAhead.unchecked, .clear, .blocked].map LookAhead.code = [0, 1, 2] ∧
    [LaneState.unchecked, .checking, .good, .bad, .stale].map LaneState.code = [0, 1, 2, 3, 4] ∧
    [SourceFlag.pair, .disagree, .single, .none].map SourceFlag.code = [0, 1, 2, 3] ∧
    [DriveState.ready, .running, .braked, .fault].map DriveState.code = [0, 1, 2, 3] ∧
    [Status.ok, .clamped, .deferred, .aborted].map Status.code = [0x00, 0x01, 0x02, 0x03] ∧
    [Status.unknownKind, .badLength, .outOfRange, .notPermitted, .wrongMode, .busy].map Status.code
      = [0x10, 0x11, 0x12, 0x13, 0x14, 0x15] ∧
    [Status.noRecord, .tableFull, .locked, .inUse, .conflict, .targetBlocked, .routeBlocked, .queueFull, .windHold,
      .haltActive, .poseLost, .estop, .notAtRest].map Status.code
      = [0x20, 0x21, 0x22, 0x23, 0x24, 0x25, 0x26, 0x27, 0x28, 0x29, 0x2A, 0x2B, 0x2C]

/-! ## Geometry -/

/-- The greatest and the least squared distance on one axis pair are taken over the eight corners and the box. -/
def Box.corners (b : Box) : List Vec3 :=
  [⟨b.lo.x, b.lo.y, b.lo.z⟩, ⟨b.lo.x, b.lo.y, b.hi.z⟩, ⟨b.lo.x, b.hi.y, b.lo.z⟩, ⟨b.lo.x, b.hi.y, b.hi.z⟩,
    ⟨b.hi.x, b.lo.y, b.lo.z⟩, ⟨b.hi.x, b.lo.y, b.hi.z⟩, ⟨b.hi.x, b.hi.y, b.lo.z⟩, ⟨b.hi.x, b.hi.y, b.hi.z⟩]

/-- The box has a point: no axis is empty. -/
def Box.inhabited (b : Box) : Prop := b.lo.x ≤ b.hi.x ∧ b.lo.y ≤ b.hi.y ∧ b.lo.z ≤ b.hi.z

/-! ## The servo step -/

/-- The set-points of one step, brake clear, winch by winch (R123). -/
def stepWrites (lengths : Quad Int) (count : BitVec 8) : List SlotWrite :=
  [⟨0, ⟨lengths.w0, count, false⟩⟩, ⟨1, ⟨lengths.w1, count, false⟩⟩, ⟨2, ⟨lengths.w2, count, false⟩⟩,
    ⟨3, ⟨lengths.w3, count, false⟩⟩]

/-- R115, R119: a vector scaled to a cap where it is longer. -/
def scaledTo (cap : Int) (v : Vec3) : Vec3 :=
  let square := v.x * v.x + v.y * v.y + v.z * v.z
  let r : Int := ceilSqrt square.toNat
  if cap * cap < square then ⟨(v.x * cap).tdiv r, (v.y * cap).tdiv r, (v.z * cap).tdiv r⟩ else v

/-- R114 to R117: the desired velocity in the modes that fly; none where the RUNNING entry has arrived, and in the modes
that desire none. At distance 0 it is zero (entry 23). -/
def desiredVelocity (s : State) (p : Path) : Option Vec3 :=
  let eff := (effectiveCap s).1
  let accel := s.settings.accelRate
  match s.carrier.mode with
  | .hold | .parked => some ⟨0, 0, 0⟩
  | .steer => some (if s.carrier.steerAge < 50 then scaledTo eff s.carrier.steer else ⟨0, 0, 0⟩)
  | .travel =>
      match s.queue.running with
      | none => some ⟨0, 0, 0⟩
      | some (e, b) =>
          let d : Vec3 := ⟨b.point.x - p.pose.x, b.point.y - p.pose.y, b.point.z - p.pose.z⟩
          let square := d.x * d.x + d.y * d.y + d.z * d.z
          let r : Int := ceilSqrt square.toNat
          let speed := approachSpeed accel eff r
          if square ≤ (1000 * e.tolerance) * (1000 * e.tolerance) ∧ |p.vel.x| ≤ accel ∧ |p.vel.y| ≤ accel
            ∧ |p.vel.z| ≤ accel then none
          else some ⟨(speed * d.x).tdiv r, (speed * d.y).tdiv r, (speed * d.z).tdiv r⟩
  | .offline | .halted _ => none

/-! ## What holds of every state -/

/-- The part is rigged exactly while the path generator holds a pose, and the stop rate is a rate (R111, Table 1-2). -/
def State.pathAgrees (s : State) : Prop := s.rigged = s.path.isSome ∧ 1 ≤ s.settings.stopRate

/-- The stopping box holds the pose and the stop point of the present velocity (R120, R122). -/
def Path.covers (stop : Int) (p : Path) : Bool :=
  p.box.contains (.span p.pose (Vec.map2 (stopPoint stop) p.pose p.vel))

/-- R121: while rigged, the stopping box meets no ACTIVE keep-out; and the box covers the braking that would follow,
and is the zone table's reference or on its way to it. -/
def State.boxClear (s : State) : Prop :=
  s.pathAgrees ∧
    ∀ p, s.path = some p →
      p.covers s.settings.stopRate = true ∧
      clearOfKeepOuts s.zones p.box = true ∧
      (match s.hands.stepZone with
        | some r => r.box = p.box
        | none => s.refBox = some p.box)

/-- R121: while rigged and not at rest, the stopping box lies in the shrunk box of an ACTIVE or OVERDUE keep-in. -/
def State.boxKept (s : State) : Prop :=
  ∀ p, s.path = some p → p.vel ≠ ⟨0, 0, 0⟩ →
    ∃ z ∈ s.zones, z.kind = .keepIn ∧ (z.state = .active ∨ z.state = .overdue) ∧ z.shrunk.contains p.box = true

/-- R123: while rigged, each commanded line length lies within LEN_MIN and LEN_MAX. With it what the rule rests on: the
pose respects the same bounds and every keep-in in force passed the line-range test; and what makes both hold at a commit: the bounds
are lengths, and while OFFLINE no keep-in is OVERDUE and there is no reference box. -/
def State.lengthsAgree (s : State) : Prop :=
  (∀ w, 0 ≤ s.settings.lenMin.get w ∧ 0 ≤ s.settings.lenMax.get w) ∧
  (s.path = none → s.refBox = none ∧ ∀ z ∈ s.zones, z.kind = .keepIn → z.state ≠ .overdue) ∧
  ∀ p, s.path = some p →
    (∀ z ∈ s.zones, z.kind = .keepIn → z.state = .active ∨ z.state = .overdue → ∀ w,
      lineRangeAt (s.settings.anchor.get w) (s.settings.lenMin.get w) (s.settings.lenMax.get w) z.shrunk = true) ∧
    ∀ w,
      (1000 * s.settings.lenMin.get w) ^ 2 ≤ squaredDistance (s.settings.anchor.get w) p.pose ∧
      squaredDistance (s.settings.anchor.get w) p.pose ≤ (1000 * s.settings.lenMax.get w) ^ 2 ∧
      1000 * s.settings.lenMin.get w ≤ p.lengths.get w ∧ p.lengths.get w ≤ 1000 * s.settings.lenMax.get w

/-- R119: the magnitude of the velocity is at most SPEED_CAP. -/
def State.withinCap (s : State) : Prop :=
  s.pathAgrees ∧ 0 ≤ s.settings.speedCap ∧
    ∀ p, s.path = some p → Vec.sq p.vel ≤ s.settings.speedCap * s.settings.speedCap

/-- A zone record as R21 and Table 2-1 give it. -/
def Zone.legal (z : Zone) : Bool := decide (1 ≤ z.number) && decide (z.number ≤ Config.maxZones)

/-- A mark record as R49, R53 and Table 3-1 give it. -/
def Mark.legal (m : Mark) : Bool := decide (m.number ≤ Config.maxMarkNumber) && decide (m.label.length ≤ Config.maxLabel)

/-- R21, R49, R65, R173: zones and marks in ascending number without repeats and within their ranges, at most 8
entries, at most 16 notices at each port. -/
def State.tablesLegal (s : State) : Prop :=
  s.zones.Pairwise (fun a b => a.number < b.number) ∧ s.zones.all Zone.legal = true ∧
    s.marks.Pairwise (fun a b => a.number < b.number) ∧ s.marks.all Mark.legal = true ∧
    s.queue.entries.length ≤ Config.maxEntries ∧
    s.rig.notices.length ≤ Config.maxNotices ∧ s.safety.notices.length ≤ Config.maxNotices

/-- R169, R170, R172: what one port holds. While a request is in service only ABORT, STEER or HALT is passed; and the answers,
the request in service and the one passed together never make more than the 5 answers that the queue can hold. -/
def PortRec.agrees (r : PortRec) : Prop :=
  (∀ c, r.service.isSome = true → r.passed = some c → passesService c = true) ∧
    r.answers.length + r.service.toList.length + r.passed.toList.length ≤ Config.maxAnswers + 1

/-- R169, R170, R172: both ports. The request that a port has passed is one of its own. -/
def State.portsAgree (s : State) : Prop :=
  ∀ p, (s.port p).agrees ∧ ∀ c, (s.port p).passed = some c → c.port? = some p

/-- R66: the ids in the queue are distinct, and the next move number is in its range and is no entry's id. -/
def State.idsDistinct (s : State) : Prop :=
  (s.queue.entries.map Entry.id).Nodup ∧ s.queue.nextId ∉ s.queue.entries.map Entry.id ∧
    1 ≤ s.queue.nextId ∧ s.queue.nextId ≤ Config.maxMoveId

/-- R65, R72, R76: only the head can be other than QUEUED, and it is so only while the travel flag is set; a bound point
stands exactly in a RUNNING or DWELLING entry; the look-ahead is formed exactly for the entry directly behind such a
head. Orders of addition are distinct and below the next one (entry 7). -/
def MoveQueue.shaped (q : MoveQueue) : Prop :=
  (q.entries.map Entry.serial).Nodup ∧ (∀ e ∈ q.entries, e.serial < q.nextSerial) ∧
    match q.entries with
    | [] => True
    | h :: rest =>
        (h.state ≠ .queued → q.travelFlag = true) ∧ h.bound.isSome = h.leads ∧ h.lookAhead = .unchecked ∧
          (∀ e ∈ rest, e.state = .queued ∧ e.bound = none) ∧
          match rest with
          | [] => True
          | e :: more => (e.lookAhead = .unchecked ↔ h.leads = false) ∧ ∀ x ∈ more, x.lookAhead = .unchecked

/-- R84: a queued or armed entry names a mark that the table holds, or one whose retirement is on its way to the queue;
only a RUNNING or DWELLING entry can show its mark as retired. -/
def State.marksNamed (s : State) : Prop :=
  ∀ e ∈ s.queue.entries, ∀ n, e.target = .mark n →
    (e.markRetired = true ∧ e.leads = true) ∨
      (e.markRetired = false ∧ ((∃ m ∈ s.marks, m.number = n) ∨ .retired n ∈ s.hands.markReports))

/-- The travel flag once the hand-offs that stand have been taken. -/
def flagAfter (flag : Bool) : List TravelHand → Bool
  | [] => flag
  | .begun _ :: rest => flagAfter true rest
  | .ended :: rest => flagAfter false rest

/-- No travel begun is taken while the flag is set. -/
def begunWhenClear (flag : Bool) : List TravelHand → Bool
  | [] => true
  | .begun _ :: rest => !flag && begunWhenClear true rest
  | .ended :: rest => begunWhenClear false rest

def TravelHand.number : TravelHand → Option Nat
  | .begun n => some n
  | .ended => none

/-- R72: the hand-offs between carrier control and the queue: once all are taken the flag is set in TRAVEL alone; the
numbers of travel begun rise from the one taken last to the one handed last; an end travel carries a number already
taken, and while one with the latest number stands the flag is clear. -/
def State.travelAgrees (s : State) : Prop :=
  (flagAfter s.queue.travelFlag s.hands.travel = true → s.carrier.mode = .travel) ∧
    begunWhenClear s.queue.travelFlag s.hands.travel = true ∧
    (s.hands.travel.filterMap TravelHand.number).Pairwise (· < ·) ∧
    (∀ n ∈ s.hands.travel.filterMap TravelHand.number, s.queue.lastBegun < n ∧ n ≤ s.carrier.begun) ∧
    s.queue.lastBegun ≤ s.carrier.begun ∧
    ∀ h ∈ s.hands.ends,
      h.number ≤ s.queue.lastBegun ∧ (h.number = s.queue.lastBegun → s.queue.travelFlag = false)

/-- R65, R72, R76, R84: the queue and its hand-offs. -/
def State.queueAgrees (s : State) : Prop := s.queue.shaped ∧ s.marksNamed ∧ s.travelAgrees

/-- R89: the stick is owned in STEER and free elsewhere, and the steer vector is zero outside STEER. -/
def State.stickAgrees (s : State) : Prop :=
  (s.carrier.stickOwned = true ↔ s.carrier.mode = .steer) ∧
    (s.carrier.mode ≠ .steer → s.carrier.steer = Vec.zero)

/-- R99, R103 to R106: there is a halt cause exactly while the mode is HALTED, a first cause exactly while there is a
cause, no cause twice, and pose lost in HALTED/STOPPED only. -/
def State.haltAgrees (s : State) : Prop :=
  (s.carrier.mode.isHalted = true ↔ s.carrier.causes ≠ []) ∧
    (s.carrier.first.isSome = true ↔ s.carrier.causes ≠ []) ∧ s.carrier.causes.Nodup ∧
    (s.carrier.poseLost = true → s.carrier.mode = .halted .stopped)

/-- R98: while carrier control's mirror of the wind hold is set, the mode is neither STEER nor TRAVEL. -/
def State.windGrounds (s : State) : Prop :=
  s.carrier.windMirror = true → s.carrier.mode ≠ .steer ∧ s.carrier.mode ≠ .travel

/-- Table 7-1: one lane within its ranges. -/
def LaneRec.inRange (r : LaneRec) : Bool :=
  decide (r.history.length ≤ 12) && decide (r.samples ≤ 15)
    && (match r.check with | none => true | some c => decide (c.matched < Config.checkWords))

/-- Tables 7-1, 8-1, 9-1: the counts of one winch's blocks within their ranges. -/
def WinchRec.inRange (r : WinchRec) : Bool :=
  decide (r.overload ≤ Config.protectLimit) && decide (r.slack ≤ Config.protectLimit)

def Drum.inRange (d : Drum) : Bool := decide (d.illegal ≤ 255) && decide (d.exceed ≤ Config.protectLimit)

def Drive.inRange (d : Drive) : Bool :=
  decide (d.watchAge ≤ 255) && (match d.statusAge with | none => true | some a => decide (a ≤ 255))

/-- R174: the interval of a port is 0 or 5 to 250, and its countdown is at most 250. -/
def PortRec.inRange (r : PortRec) : Bool :=
  (r.interval == 0 || (decide (5 ≤ r.interval) && decide (r.interval ≤ 250))) && decide (r.countdown ≤ 250)

/-- Tables 5-1, 7-1, 8-1, 8-3, 9-1 and R174: every counter of the part is in the range its table gives. -/
def State.countersInRange (s : State) : Bool :=
  s.tension.lanes.toList.all LaneRec.inRange && s.tension.winches.toList.all WinchRec.inRange
    && s.drums.toList.all Drum.inRange && s.bus.drives.toList.all Drive.inRange && s.rig.inRange && s.safety.inRange
    && decide (s.carrier.steerAge ≤ Config.steerLife) && decide (s.wind.pulses ≤ 65535)
    && decide (s.bus.failures ≤ Config.failureLimit) && decide (s.bus.countdown ≤ Config.keepalivePeriods)
    && decide (s.periods < Config.periodsPerTick) && s.queue.entries.all (fun e => decide (e.stall < Config.stallLimit))

end Sys2Proof.Machine
end

