-- ==== Sys2Proof/Certificates/Slice0/Obligations.lean ====
section
/-! DEFINITION. The statements for the provers, chapter by chapter. A result statement gives the whole next state, so it
is the command's frame too: what the record update does not name is unchanged. `State.served` and `State.told` say what
happens at the ports (Safety.lean). A request is given where it reaches its owner (`State.takes`, R169); what happens where
it does not, RequestStagePassesOrRefuses says of every request. A CLOSE detail that its owning rule does not give stands as 0: the model's choice
(entry 10). -/

open Sys2Proof Sys2Proof.Machine

/-! ## The machine -/

/-- A step takes the command at the front of the queue and runs it with the queue's rest. -/
def Obligations.StepRunsFrontCommand : Prop :=
    ∀ (c : Instr) (rest : List Instr) (s : State), s.pending = c :: rest → step s = exec c { s with pending := rest }

/-- The model's choice (entry 4) over R1: with no command waiting, the hand-offs that stand are put into the queue, and
when none stands one servo period passes, every 250th with a second tick. -/
def Obligations.EmptyQueueRunsTimebase : Prop :=
    ∀ s : State, s.pending = [] →
    (standing s ≠ [] → step s = .next { s with pending := standing s }) ∧
    (standing s = [] → s.periods ≠ 249 →
      step s = .next { s with
        periods := s.periods + 1
        pending := [.servoStep, .drivePeriodExpiry, .portPeriodExpiry .rig, .portPeriodExpiry .safety] }) ∧
    (standing s = [] → s.periods = 249 →
      step s = .next { s with
        periods := 0
        pending := [.servoStep, .drivePeriodExpiry, .portPeriodExpiry .rig, .portPeriodExpiry .safety, .zoneSecondTick,
          .drumSecondTick, .windSecondTick] })

/-- No command stops the part, and none touches the queue of commands. -/
def Obligations.CommandsCompleteAndKeepQueue : Prop :=
    ∀ (c : Instr) (s : State), ∃ t, exec c s = .next t ∧ t.pending = s.pending

/-- R6, R48, R64, R88, R89, R111, R144, R145, R156, R178: what a hard reset leaves, whatever stood before. The pieces
whose value the manual does not give stand as the model's `State.reset` has them (entries 5 to 8). -/
def Obligations.HardResetLeavesResetState : Prop :=
    ∀ (lines : ResetLines) (s : State), ∃ t, exec (.hardReset lines) s = .next t ∧
    t = { State.reset with
      drums := lines.encoders.map (fun l => ⟨l, 0, none, none, 0, 0⟩), estop := lines.estop, pending := s.pending } ∧
    t.settings.anchor = .all ⟨0, 0, 0⟩ ∧ t.settings.lenMin = .all 1000 ∧ t.settings.lenMax = .all 250000 ∧
    t.settings.drumScale = .all 0 ∧ t.settings.lineSpeed = .all 500 ∧ t.settings.speedCap = 2000 ∧
    t.settings.accelRate = 10 ∧ t.settings.stopRate = 40 ∧ t.settings.trackTol = 100 ∧
    t.settings.laneMap = .all none ∧ t.settings.laneFormat = .all .offset ∧ t.settings.laneGain = .all 0 ∧
    t.settings.laneScale = .all 256 ∧ t.settings.lanePattern = .all (0x5555, 0xAAAA) ∧
    t.settings.filterMode = .builtIn ∧ t.settings.filterCoeff = List.replicate 12 0 ∧ t.settings.busRate = 1000 ∧
    t.settings.busTxBase = 0x100 ∧ t.settings.acceptCode = 0x180 ∧ t.settings.acceptMask = 0x7FC ∧
    t.settings.windCmPerPulse = 0 ∧ t.settings.capTrim = 100 ∧ t.settings.tensionSlack = .all 500 ∧
    t.settings.tensionWarn = .all 20000 ∧ t.settings.tensionMax = .all 30000 ∧ t.settings.disagreeTol = 2000 ∧
    t.settings.windFull = 800 ∧ t.settings.windStop = 1400 ∧ t.settings.derateFloor = 500 ∧
    t.rig.interval = 25 ∧ t.safety.interval = 25 ∧ t.carrier.mode = .offline ∧ t.zones = [] ∧ t.marks = [] ∧
    t.queue.entries = [] ∧ t.queue.nextId = 1 ∧ t.path = none ∧ t.refBox = none ∧ t.wind.cap = 2000 ∧
    t.tension.cap = 2000 ∧ t.bus.flight = none ∧ t.rig.receiver = .hunting ∧ t.safety.receiver = .hunting ∧
    t.rig.countdown = 25 ∧ t.safety.countdown = 25

/-! ## What every step keeps -/

/-- R121 with R30 and R122: while rigged, the stopping box never meets the expanded box of an ACTIVE keep-out. -/
def Obligations.StoppingBoxStaysClear : Prop :=
   ∀ s t : State, s.boxClear → step s = .next t → t.boxClear

/-- R121: while the part is rigged and the carrier is not at rest, the stopping box lies inside the shrunk box of at least
one ACTIVE or OVERDUE keep-in. The premises are invariants of their own: the box covers the braking and is the zone
table's reference (StoppingBoxStaysClear), and no zone number is shared (TablesAndMoveIdsStayLegal). -/
def Obligations.MovingBoxLiesInKeepIn : Prop :=
    ∀ s t : State, s.boxClear → s.tablesLegal → s.boxKept → step s = .next t → t.boxKept

/-- R123: while the part is rigged, each commanded line length lies within that winch's LEN_MIN and LEN_MAX. The premises
are invariants of their own (StoppingBoxStaysClear, TablesAndMoveIdsStayLegal, MovingBoxLiesInKeepIn). -/
def Obligations.LineLengthsStayInRange : Prop :=
    ∀ s t : State, s.boxClear → s.tablesLegal → s.boxKept → s.lengthsAgree → step s = .next t → t.lengthsAgree

/-- R119: the magnitude of the carrier velocity never exceeds SPEED_CAP. -/
def Obligations.SpeedStaysWithinCap : Prop :=
   ∀ s t : State, s.withinCap → step s = .next t → t.withinCap

/-- R21, R49, R65, R173: the tables keep their order and their bounds. R66: an id is never shared within the queue. R169,
R170, R172: while a request is in service a port passes ABORT, STEER and HALT alone, and its answers, the one in service
and the one passed together never make more than the 5 answers that the queue can hold. -/
def Obligations.TablesAndMoveIdsStayLegal : Prop :=
  (∀ s t : State, s.tablesLegal → step s = .next t → t.tablesLegal) ∧
  (∀ s t : State, s.idsDistinct → step s = .next t → t.idsDistinct) ∧
  (∀ s t : State, s.portsAgree → step s = .next t → t.portsAgree)

/-- R89, R98, R99 to R109: the stick is owned in STEER and free in every other mode; causes stand exactly in HALTED, and
pose is lost in HALTED/STOPPED only; while the mirror of the wind hold is set, the mode is neither STEER nor TRAVEL. -/
def Obligations.CarrierControlStaysConsistent : Prop :=
  (∀ s t : State, s.stickAgrees → step s = .next t → t.stickAgrees) ∧
  (∀ s t : State, s.haltAgrees → step s = .next t → t.haltAgrees) ∧
  (∀ s t : State, s.windGrounds → step s = .next t → t.windGrounds)

/-- R65, R72, R76, R84: the queue keeps its shape, its entries name marks that are held, and the travel hand-offs agree
with the mode and the travel flag. -/
def Obligations.QueueAndTravelStayInStep : Prop :=
    ∀ s t : State, s.queueAgrees → step s = .next t → t.queueAgrees

/-- Tables 5-1, 7-1, 8-1, 8-3, 9-1 and R174: every counter keeps its range. -/
def Obligations.CountersStayInRange : Prop :=
    ∀ s t : State, s.countersInRange = true → step s = .next t → t.countersInRange = true

/-- The state after reset has every one of these properties. Where a property reads a piece that the manual gives no reset
value for, the value is the model's choice (entries 5 to 8). -/
def Obligations.ResetHasEveryInvariant : Prop :=
    State.reset.boxClear ∧ State.reset.boxKept ∧ State.reset.lengthsAgree ∧ State.reset.withinCap ∧
    State.reset.tablesLegal ∧ State.reset.idsDistinct ∧ State.reset.portsAgree ∧
    State.reset.stickAgrees ∧ State.reset.haltAgrees ∧ State.reset.windGrounds ∧ State.reset.queueAgrees ∧
    State.reset.countersInRange = true

/-! ## Rules over all commands -/

/-- R20: while rigged, no command but a hard reset changes a rig setting. -/
def Obligations.RigSettingsFrozenWhileRigged : Prop :=
    ∀ (c : Instr) (s t : State), s.rigged = true → (∀ lines, c ≠ .hardReset lines) → exec c s = .next t →
    t.settings = { s.settings with
      capTrim := t.settings.capTrim, tensionSlack := t.settings.tensionSlack, tensionWarn := t.settings.tensionWarn,
      tensionMax := t.settings.tensionMax, disagreeTol := t.settings.disagreeTol, windFull := t.settings.windFull,
      windStop := t.settings.windStop, derateFloor := t.settings.derateFloor }

/-- Table 5-2 and section 1.5: OFFLINE is left by RIG_COMMIT alone, and entered by UNRIG and hard reset alone; HALTED is
left by CLEAR_HALT, UNRIG and hard reset alone.
R111: only the servo step, the freeze, RIG_COMMIT, UNRIG and hard reset change what the path generator holds. -/
def Obligations.ModeAndPathChangeByTheirEvents : Prop :=
  (∀ (c : Instr) (s t : State), exec c s = .next t →
    (s.rigged = false → t.rigged = true → ∃ p tag pose, c = .rigCommit p tag pose) ∧
    (s.rigged = true → t.rigged = false → (∃ tag, c = .unrig .safety tag) ∨ ∃ lines, c = .hardReset lines) ∧
    (s.carrier.mode.isHalted = true → t.carrier.mode.isHalted = false →
      (∃ tag, c = .clearHalt .safety tag) ∨ (∃ tag, c = .unrig .safety tag) ∨ ∃ lines, c = .hardReset lines)) ∧
  (∀ (c : Instr) (s t : State), exec c s = .next t → t.path ≠ s.path →
    c = .servoStep ∨ c = .freeze ∨ (∃ p tag pose, c = .rigCommit p tag pose) ∨ (∃ p tag, c = .unrig p tag) ∨
      ∃ lines, c = .hardReset lines)

/-- R37: a FIXED zone without a lifetime that is not OVERDUE keeps its kind, extent and margin, and stays in the table,
until a hard reset. -/
def Obligations.FixedZoneStays : Prop :=
    ∀ (c : Instr) (s t : State) (z : Zone), s.tablesLegal → z ∈ s.zones → z.lock = .fixed → z.lifetime = none →
    z.state ≠ .overdue → (∀ lines, c ≠ .hardReset lines) → exec c s = .next t →
    ∃ z' ∈ t.zones, z'.number = z.number ∧ z'.kind = z.kind ∧ z'.least = z.least ∧ z'.greatest = z.greatest ∧
      z'.margin = z.margin ∧ z'.lock = .fixed ∧ z'.lifetime = none ∧ z'.state ≠ .overdue

/-- R124, R52, R121: a zone request, a second tick and a lapse are judged after the step result and the report of changes
in force that stand have been taken, as if their own commands had come first (entry 3).
R90, R96, R102, R128: outside HALTED/STOPPING, STEER, PARK, UNRIG, HALT and every report of a halt cause are taken after
the step result that stands at carrier control.
R63, R84, R87: an event at the move queue is taken after a retirement that stands first among the mark table's reports;
where no retirement stands, the event may come before the replacements and state changes that do: it takes none of them.
That the reports before a retirement are taken with it is the model's deduction (entry 3). An UNRIG that is accepted takes
a retirement that stands in the same way (R63, entry 3).
R52: a change in force that stands is taken before each of these events, before the mark requests and before an accepted UNRIG.
R90, R123, R124: a servo step follows the set-points that the step before handed, and then its result at the four blocks
(entry 3). Each request is one that its owner takes (RequestStagePassesOrRefuses). -/
def Obligations.EventsTakeStandingResultsFirst : Prop :=
  (∀ (c : Instr) (s u v : State), s.admits c → isZoneEvent c = true → s.hands.changes = [] →
    exec .zoneStepResult s = .next u → exec .changeInForceReport u = .next v → exec c s = exec c v) ∧
  (∀ (c : Instr) (s u : State), s.admits c → s.readsStepResult c = true → s.carrier.mode ≠ .offline →
    s.carrier.mode ≠ .halted .stopping → exec .carrierStepResult s = .next u → exec c s = exec c u) ∧
  (∀ (c : Instr) (s u : State) (n : Nat) (rest : List MarkReport), s.admits c → s.reachesQueue c = true →
    s.hands.changes = [] → s.hands.markReports = .retired n :: rest → exec .retirementReport s = .next u → exec c s = exec c u) ∧
  (∀ (c : Instr) (s t : State), s.reachesQueue c = true → s.marksSettled = true → exec c s = .next t →
    t.hands.markReports = s.hands.markReports) ∧
  (∀ (tag : Byte) (s u : State) (n : Nat) (rest : List MarkReport),
    let c : Instr := .unrig .safety tag
    let m := s.carrier.mode
    s.admits c → s.hands.stepCarrier = none →
    m = .parked ∨ m = .halted .stopped ∨ (m = .hold ∧ s.carrier.lastAtRest = true) → s.hands.changes = [] →
    s.hands.markReports = .retired n :: rest → exec .retirementReport s = .next u → exec c s = exec c u) ∧
  (∀ (c : Instr) (s u : State), s.admits c →
    isZoneEvent c = true ∨ isMarkRequest c = true ∨ s.reachesQueue c = true ∨
      (c = .servoStep ∧ s.rigged = true ∧ s.hands.writes = []) ∨
      (∃ tag, c = .unrig .safety tag ∧ s.hands.stepCarrier = none ∧ (s.carrier.mode = .parked ∨
        s.carrier.mode = .halted .stopped ∨ (s.carrier.mode = .hold ∧ s.carrier.lastAtRest = true))) →
    s.hands.changes ≠ [] → exec .changeInForceReport s = .next u → exec c s = exec c u) ∧
  (∀ s u : State, s.rigged = true → s.hands.writes ≠ [] → exec .setpointWrite s = .next u →
    exec .servoStep s = exec .servoStep u) ∧
  (∀ s z v q k d : State, s.rigged = true → s.hands.writes = [] → exec .zoneStepResult s = .next z →
    exec .changeInForceReport z = .next v → exec .queueStepResult v = .next q → exec .carrierStepResult q = .next k →
    exec .drumStepResult k = .next d → d.stepSettled = true ∧ exec .servoStep s = exec .servoStep d)

/-! ## Arithmetic and geometry -/

/-- R125: the stopping distance, the distance the braking sequence covers, invariance under braking, monotony and the
greatest value.
R3, R4: the line length is the distance rounded to the nearest micrometre, and it crosses no integer bound that the
square respects. -/
def Obligations.StoppingDistanceAndLineLengthAreExact : Prop :=
  (∀ b u : Int, 0 < b → 0 ≤ u →
    stopDistance b u = 4 * ((u / b) * u - b * ((u / b) * (u / b + 1)) / 2) ∧
    stopDistance b u = ((List.range (u / b).toNat).map (fun k => 4 * (u - ((k : Int) + 1) * b))).sum ∧
    (b ≤ u → 4 * (u - b) + stopDistance b (u - b) = stopDistance b u) ∧
    (u < b → stopDistance b u = 0) ∧
    (∀ w, u ≤ w → stopDistance b u ≤ stopDistance b w ∧ 4 * u + stopDistance b u ≤ 4 * w + stopDistance b w) ∧
    (∀ a, 0 ≤ a → a < b → a ≤ u → stopDistance b u ≤ 4 * (u - a) + stopDistance b (u - a)) ∧
    (u ≤ 10000 → stopDistance b u ≤ 199980000)) ∧
  (∀ anchor pose : Vec3,
    let d := (pose.x - 1000 * anchor.x) ^ 2 + (pose.y - 1000 * anchor.y) ^ 2 + (pose.z - 1000 * anchor.z) ^ 2
    let l := lineLength anchor pose
    0 ≤ l ∧ (0 < l → (2 * l - 1) ^ 2 ≤ 4 * d) ∧ 4 * d < (2 * l + 1) ^ 2 ∧
      (∀ m : Int, 0 ≤ m → d ≤ m * m → l ≤ m) ∧ (∀ n : Int, 0 ≤ n → n * n ≤ d → n ≤ l))

/-- R5: on one winch the line-range test passes when every corner is within the greatest length and every point of the
box is beyond the least.
R70: the slab test finds exactly the segments that share a point with the box; the point lies the fraction n / d
along the segment. -/
def Obligations.LineRangeAndSlabTestsAreGeometric : Prop :=
  (∀ (anchor : Vec3) (lenMin lenMax : Int) (b : Box), b.inhabited → 0 ≤ lenMin → 0 ≤ lenMax →
    (lineRangeAt anchor lenMin lenMax b = true ↔
      (∀ q ∈ b.corners, squaredDistance anchor q ≤ (1000 * lenMax) ^ 2) ∧
      ∀ q : Vec3, b.holds q = true → (1000 * lenMin) ^ 2 ≤ squaredDistance anchor q)) ∧
  (∀ (p q : Vec3) (b : Box), b.inhabited →
    (segmentMeets p q b = true ↔
      ∃ n d : Int, 0 ≤ n ∧ n ≤ d ∧ 0 < d ∧
        d * b.lo.x ≤ d * p.x + n * (q.x - p.x) ∧ d * p.x + n * (q.x - p.x) ≤ d * b.hi.x ∧
        d * b.lo.y ≤ d * p.y + n * (q.y - p.y) ∧ d * p.y + n * (q.y - p.y) ≤ d * b.hi.y ∧
        d * b.lo.z ≤ d * p.z + n * (q.z - p.z) ∧ d * p.z + n * (q.z - p.z) ≤ d * b.hi.z))

/-- R113: the effective cap is the least of the caps, and the factor is the first that gives it; the move cap is the
bound cap of a RUNNING head in TRAVEL. The ceil-sqrt is the least number whose square is at least n, and the floor-sqrt
the greatest whose square is at most n. R115, R119: a vector longer than a cap has each component scaled by the cap and
divided by the ceil-sqrt of its square, truncated; it is then no longer than the cap and keeps the sign of each
component; one within the cap is used as it is. R117: the approach speed is the largest speed up to the cap from which
the carrier comes to rest in time, and the desired velocity points at the bound point with it; at distance 0, where R117
divides by 0, it is zero: the model's deduction (entry 23). R118: the acceleration
limit of one component. R120: the candidate pose, its stop point and its stopping box. -/
def Obligations.DesiredVelocityRespectsCaps : Prop :=
  (∀ s : State,
    let base := s.settings.speedCap * s.settings.capTrim / 100
    let cap := (effectiveCap s).1
    cap ≤ base ∧ cap ≤ s.wind.cap ∧ cap ≤ s.tension.cap ∧ (∀ m, moveCap s = some m → cap ≤ m) ∧
      ((effectiveCap s).2 = .setting ↔ cap = base) ∧
      ((effectiveCap s).2 = .move → ∃ m : Nat, moveCap s = some m ∧ cap = m ∧ cap < base) ∧
      ((effectiveCap s).2 = .wind → cap = s.wind.cap ∧ cap < base ∧ ∀ m : Nat, moveCap s = some m → cap < m) ∧
      ((effectiveCap s).2 = .tension → cap = s.tension.cap ∧ cap < base ∧ cap < s.wind.cap ∧
        ∀ m : Nat, moveCap s = some m → cap < m) ∧
      ∀ m, moveCap s = some m ↔ s.carrier.mode = .travel ∧
        ∃ e rest b, s.queue.entries = e :: rest ∧ e.state = .running ∧ e.bound = some b ∧ b.cap = some m) ∧
  (∀ n : Nat, n ≤ ceilSqrt n * ceilSqrt n ∧ (∀ m, n ≤ m * m → ceilSqrt n ≤ m) ∧
    floorSqrt n * floorSqrt n ≤ n ∧ ∀ m, m * m ≤ n → m ≤ floorSqrt n) ∧
  (∀ (cap : Int) (v : Vec3), 0 ≤ cap →
    let r : Int := ceilSqrt (v.x * v.x + v.y * v.y + v.z * v.z).toNat
    Vec.sq (limitMagnitude cap v) ≤ cap * cap ∧ (Vec.sq v ≤ cap * cap → limitMagnitude cap v = v) ∧
    (cap * cap < v.x * v.x + v.y * v.y + v.z * v.z →
      limitMagnitude cap v = ⟨(v.x * cap).tdiv r, (v.y * cap).tdiv r, (v.z * cap).tdiv r⟩) ∧
    0 ≤ (limitMagnitude cap v).x * v.x ∧ 0 ≤ (limitMagnitude cap v).y * v.y ∧ 0 ≤ (limitMagnitude cap v).z * v.z) ∧
  (∀ accel eff r : Int, 0 < accel → 0 ≤ eff → 0 ≤ r →
    let s := approachSpeed accel eff r
    0 ≤ s ∧ s ≤ eff ∧ 4 * s + stopDistance accel s ≤ r ∧
      ∀ w, 0 ≤ w → w ≤ eff → 4 * w + stopDistance accel w ≤ r → w ≤ s) ∧
  (∀ (accel eff : Int) (d : Vec3), 0 < accel → 0 ≤ eff →
    let r : Int := ceilSqrt (d.x * d.x + d.y * d.y + d.z * d.z).toNat
    let speed := approachSpeed accel eff r
    let v := approachVelocity accel eff d
    v = ⟨(speed * d.x).tdiv r, (speed * d.y).tdiv r, (speed * d.z).tdiv r⟩ ∧ Vec.sq v ≤ speed * speed ∧
      0 ≤ v.x * d.x ∧ 0 ≤ v.y * d.y ∧ 0 ≤ v.z * d.z) ∧
  (∀ accel v d : Int, 0 ≤ accel →
    (v < d → limitComponent accel v d = min d (v + accel)) ∧ (d < v → limitComponent accel v d = max d (v - accel)) ∧
    (d = v → limitComponent accel v d = v) ∧ |limitComponent accel v d - v| ≤ accel) ∧
  (∀ (stop : Int) (pose c : Vec3), 0 < stop →
    let m := candidate stop pose c
    let t : Vec3 := ⟨m.pose.x + c.x.sign * stopDistance stop c.x.natAbs, m.pose.y + c.y.sign * stopDistance stop c.y.natAbs,
      m.pose.z + c.z.sign * stopDistance stop c.z.natAbs⟩
    m.pose = ⟨pose.x + 4 * c.x, pose.y + 4 * c.y, pose.z + 4 * c.z⟩ ∧ m.vel = c ∧
      m.box = ⟨⟨min pose.x t.x, min pose.y t.y, min pose.z t.z⟩, ⟨max pose.x t.x, max pose.y t.y, max pose.z t.z⟩⟩ ∧
      m.box.holds pose = true ∧ m.box.holds m.pose = true ∧ m.box.holds t = true)

/-! ## Frames -/

/-- Tables 11-1 and 11-9: every request that can arrive is read back from its frame, with every field. -/
def Obligations.RequestsDecodeFromTheirFrames : Prop :=
    ∀ (c : Instr) (p : Port) (f : RawFrame), c.wellFormed = true → encodeRequest c = some (p, f) →
    decodeRequest p f = .request c ∧ f.body.length ≤ 240

/-- R167, R168: the bytes of a frame, received from HUNTING with good stop bits, hand exactly that frame to the request
stage, and nothing else of the part changes. -/
def Obligations.WireFramesAreRecovered : Prop :=
    ∀ (p : Port) (f : RawFrame) (s : State), f.body.length ≤ 240 → (s.port p).receiver = .hunting →
    f.wire.foldl (fun (o : Result) b =>
        match o with
        | .next t => exec (.receiveCharacter p b true) t
        | stopped => stopped) (.next s)
      = .next (s.setPort p { s.port p with completed := (s.port p).completed ++ [f] })

/-! ## Chapter 6: the servo step -/

/-- R112, R114, R124: in HALTED/STOPPED the step holds the pose at rest, writes no set-point and publishes the point of
the pose; while OFFLINE the expiry is not taken.
R122 to R124: in HALTED/STOPPING the step brakes each component at STOP_RATE without a clearance check, and hands
the four set-points of the new pose.
R126: a freeze zeroes the velocity and keeps every other item; while OFFLINE it has no effect.
A step is given with nothing of the step before standing; what stands is taken first (EventsTakeStandingResultsFirst). -/
def Obligations.HaltedStepsAndFreeze : Prop :=
  (∀ (s : State) (p : Path),
    (s.rigged = false → exec .servoStep s = .next s) ∧
    (s.carrier.mode = .halted .stopped → s.path = some p → s.stepSettled = true →
      let r : StepResult := ⟨p.pose, ⟨0, 0, 0⟩, ⟨p.pose, p.pose⟩, .atRest, true, false⟩
      exec .servoStep s = .next { s with
        path := some { p with
          vel := ⟨0, 0, 0⟩, box := ⟨p.pose, p.pose⟩, verdict := .atRest, count := p.count + 1,
          cap := (effectiveCap s).1, factor := (effectiveCap s).2 }
        hands := { s.hands with
          stepZone := some r, stepQueue := some r, stepCarrier := some r, stepDrum := some r } })) ∧
  (∀ (s : State) (p : Path), s.carrier.mode = .halted .stopping → s.path = some p → s.stepSettled = true →
    let b := s.settings.stopRate
    let v : Vec3 := ⟨p.vel.x.sign * max (p.vel.x.natAbs - b) 0, p.vel.y.sign * max (p.vel.y.natAbs - b) 0,
      p.vel.z.sign * max (p.vel.z.natAbs - b) 0⟩
    let pose : Vec3 := ⟨p.pose.x + 4 * v.x, p.pose.y + 4 * v.y, p.pose.z + 4 * v.z⟩
    let stop : Vec3 := ⟨pose.x + v.x.sign * stopDistance b v.x.natAbs, pose.y + v.y.sign * stopDistance b v.y.natAbs,
      pose.z + v.z.sign * stopDistance b v.z.natAbs⟩
    let box : Box := ⟨⟨min pose.x stop.x, min pose.y stop.y, min pose.z stop.z⟩,
      ⟨max pose.x stop.x, max pose.y stop.y, max pose.z stop.z⟩⟩
    let lengths := lineLengths s.settings.anchor pose
    let r : StepResult := ⟨pose, v, box, .braked, v == ⟨0, 0, 0⟩, false⟩
    exec .servoStep s = .next { s with
      path := some ⟨pose, v, box, .braked, lengths, p.count + 1, (effectiveCap s).1, (effectiveCap s).2⟩
      hands := { s.hands with
        stepZone := some r, stepQueue := some r, stepCarrier := some r, stepDrum := some r,
        writes := stepWrites lengths (p.count + 1) } }) ∧
  (∀ s : State, s.hands.freeze = true →
    (∀ p, s.rigged = true → s.path = some p →
      exec .freeze s = .next { s with path := some { p with vel := ⟨0, 0, 0⟩ }, hands := { s.hands with freeze := false } }) ∧
    (s.rigged = false → exec .freeze s = .next { s with hands := { s.hands with freeze := false } }))

/-- R118 to R124: toward the desired velocity of R114 to R117 (Safety.lean; zero at distance 0, entry 23) the step stays at
rest, takes the candidate when its stopping box meets no ACTIVE keep-out and lies in a keep-in in force, and otherwise
brakes; it publishes what it did, and hands set-points unless PARKED.
R116: in TRAVEL, a RUNNING entry within its tolerance with every component of the velocity at most A has arrived:
the carrier stops where it is, and the result carries both flags. A step is given with nothing of the step before standing;
what stands is taken first (EventsTakeStandingResultsFirst). -/
def Obligations.ServoStepMovesBrakesOrArrives : Prop :=
  (∀ (s : State) (p : Path) (d : Vec3), s.path = some p → s.stepSettled = true → desiredVelocity s p = some d →
    let accel := s.settings.accelRate
    let rate := s.settings.stopRate
    let toward := fun v d : Int => if v < d then min d (v + accel) else if d < v then max d (v - accel) else v
    let c := scaledTo s.settings.speedCap ⟨toward p.vel.x d.x, toward p.vel.y d.y, toward p.vel.z d.z⟩
    let next : Vec3 := ⟨p.pose.x + 4 * c.x, p.pose.y + 4 * c.y, p.pose.z + 4 * c.z⟩
    let stop : Vec3 := ⟨next.x + c.x.sign * stopDistance rate c.x.natAbs, next.y + c.y.sign * stopDistance rate c.y.natAbs,
      next.z + c.z.sign * stopDistance rate c.z.natAbs⟩
    let box : Box := ⟨⟨min p.pose.x stop.x, min p.pose.y stop.y, min p.pose.z stop.z⟩,
      ⟨max p.pose.x stop.x, max p.pose.y stop.y, max p.pose.z stop.z⟩⟩
    let v : Vec3 := ⟨p.vel.x.sign * max (p.vel.x.natAbs - rate) 0, p.vel.y.sign * max (p.vel.y.natAbs - rate) 0,
      p.vel.z.sign * max (p.vel.z.natAbs - rate) 0⟩
    let pose : Vec3 := ⟨p.pose.x + 4 * v.x, p.pose.y + 4 * v.y, p.pose.z + 4 * v.z⟩
    let halt : Vec3 := ⟨pose.x + v.x.sign * stopDistance rate v.x.natAbs, pose.y + v.y.sign * stopDistance rate v.y.natAbs,
      pose.z + v.z.sign * stopDistance rate v.z.natAbs⟩
    let held : Box := ⟨⟨min pose.x halt.x, min pose.y halt.y, min pose.z halt.z⟩,
      ⟨max pose.x halt.x, max pose.y halt.y, max pose.z halt.z⟩⟩
    let still := c = ⟨0, 0, 0⟩ ∧ p.vel = ⟨0, 0, 0⟩
    let passes := (∀ z ∈ s.zones, z.kind = .keepOut → z.state = .active → z.expanded.meets box = false) ∧
      ∃ z ∈ s.zones, z.kind = .keepIn ∧ (z.state = .active ∨ z.state = .overdue) ∧ z.shrunk.contains box = true
    let ends := fun m : Motion =>
      let lengths := if s.carrier.mode = .parked then p.lengths else lineLengths s.settings.anchor m.pose
      let r : StepResult := ⟨m.pose, m.vel, m.box, m.verdict, m.vel == ⟨0, 0, 0⟩, false⟩
      exec .servoStep s = .next { s with
        path := some ⟨m.pose, m.vel, m.box, m.verdict, lengths, p.count + 1, (effectiveCap s).1, (effectiveCap s).2⟩
        hands := { s.hands with
          stepZone := some r, stepQueue := some r, stepCarrier := some r, stepDrum := some r,
          writes := if s.carrier.mode = .parked then [] else stepWrites lengths (p.count + 1) } }
    (still → ends ⟨p.pose, ⟨0, 0, 0⟩, ⟨p.pose, p.pose⟩, .atRest, false⟩) ∧
    (¬still → passes → ends ⟨next, c, box, .accepted, false⟩) ∧
    (¬still → ¬passes → ends ⟨pose, v, held, .braked, false⟩)) ∧
  (∀ (s : State) (p : Path) (e : Entry) (b : Bound) (rest : List Entry), s.carrier.mode = .travel → s.path = some p →
    s.stepSettled = true → s.queue.entries = e :: rest → e.state = .running → e.bound = some b →
    (b.point.x - p.pose.x) ^ 2 + (b.point.y - p.pose.y) ^ 2 + (b.point.z - p.pose.z) ^ 2 ≤ (1000 * (e.tolerance : Int)) ^ 2 →
    |p.vel.x| ≤ s.settings.accelRate → |p.vel.y| ≤ s.settings.accelRate → |p.vel.z| ≤ s.settings.accelRate →
    let lengths := lineLengths s.settings.anchor p.pose
    let r : StepResult := ⟨p.pose, ⟨0, 0, 0⟩, ⟨p.pose, p.pose⟩, .atRest, true, true⟩
    exec .servoStep s = .next { s with
      path := some ⟨p.pose, ⟨0, 0, 0⟩, ⟨p.pose, p.pose⟩, .atRest, lengths, p.count + 1, (effectiveCap s).1,
        (effectiveCap s).2⟩
      hands := { s.hands with
        stepZone := some r, stepQueue := some r, stepCarrier := some r, stepDrum := some r,
        writes := stepWrites lengths (p.count + 1) } })

/-! ## Chapter 9: the drive bus -/

/-- R158, R159: a set-point takes its slot, and a raise of STOP withdraws every set-point that is pending in a slot
and makes STOP pending with the first cause that stands. A raise taken after the CLEAR_HALT finds no cause: the model's
choice (entry 29). -/
def Obligations.SlotsTakeSetpointsAndStop : Prop :=
    (∀ (s : State) (w : SlotWrite) (rest : List SlotWrite), s.rigged = true → s.hands.writes = w :: rest →
    exec .setpointWrite s = .next { s with
      bus := { s.bus with slots := s.bus.slots.set w.winch (some w.content) }, hands := { s.hands with writes := rest } }) ∧
  (∀ (s : State) (r : Raise) (rest : List Raise), s.rigged = true → s.hands.raises = r :: rest →
    exec .raiseStop s = .next { s with
      bus := { s.bus with slots := .all none, stopSlot := some (s.carrier.first.map Report.cause) }
      hands := { s.hands with raises := rest } })

/-- R162: at a period expiry while rigged outside PARKED and HALTED/STOPPED the ages rise, the watch ages from 0 when the
class before was LONG, and each winch whose watch age reaches 10 is reported with LINK_LOST; while OFFLINE only the
status ages rise.
R162, R163: at a period expiry in PARKED or HALTED/STOPPED the ages rise and each winch whose watch age reaches 60 is
reported; the keepalives are written, with the commanded length, the step count and the brake flag set, when the mode is
entered from a SHORT class or the countdown stands at 0 or 1, and otherwise the countdown falls by 1. In HALTED/STOPPED
the raise of the entry that stands is taken before: its STOP is pending together with the first keepalives (entry 3).
R162, R163 (the model's choice of what records that it is due, entry 2): a timeout that is due is reported once, and a keepalive
that is due is written into each slot. -/
def Obligations.PeriodExpiryAgesAndKeepsBrakes : Prop :=
  (∀ s : State, s.rigged = true → s.carrier.mode ≠ .parked → s.carrier.mode ≠ .halted .stopped →
    s.bus.keepaliveDue = false →
    let watch := fun d : Drive => min ((if s.bus.lastClass = .long then 0 else d.watchAge) + 1) 255
    exec .drivePeriodExpiry s = .next { s with
      bus := { s.bus with
        lastClass := .short
        drives := s.bus.drives.map (fun d => { d with
          statusAge := d.statusAge.map (fun a => min (a + 1) 255), watchAge := watch d, timeoutDue := false }) }
      hands := { s.hands with
        faults := s.hands.faults
          ++ (winches.filter (fun w => decide (watch (s.bus.drives.get w) = 10))).map (fun w => ⟨.linkLost, some w⟩) } }) ∧
  (∀ s : State, s.rigged = false →
    exec .drivePeriodExpiry s = .next { s with
      bus := { s.bus with
        drives := s.bus.drives.map (fun d => { d with statusAge := d.statusAge.map (fun a => min (a + 1) 255) }) } }) ∧
  (∀ (s : State) (p : Path), s.carrier.mode = .parked ∨ (s.carrier.mode = .halted .stopped ∧ .entry ∉ s.hands.raises) →
    s.path = some p → s.bus.keepaliveDue = false →
    let due := s.bus.lastClass = .short ∨ s.bus.countdown ≤ 1
    exec .drivePeriodExpiry s = .next { s with
      bus := { s.bus with
        lastClass := .long
        countdown := if due then 25 else s.bus.countdown - 1
        slots := if due then ⟨some ⟨p.lengths.w0, p.count, true⟩, some ⟨p.lengths.w1, p.count, true⟩,
          some ⟨p.lengths.w2, p.count, true⟩, some ⟨p.lengths.w3, p.count, true⟩⟩ else s.bus.slots
        drives := s.bus.drives.map (fun d => { d with
          statusAge := d.statusAge.map (fun a => min (a + 1) 255), watchAge := min (d.watchAge + 1) 255
          timeoutDue := false }) }
      hands := { s.hands with
        faults := s.hands.faults
          ++ (winches.filter (fun w => decide ((s.bus.drives.get w).watchAge = 59))).map (fun w => ⟨.linkLost, some w⟩) } }) ∧
  (∀ s u : State, s.carrier.mode = .halted .stopped → .entry ∈ s.hands.raises → exec .raiseStop s = .next u →
    exec .drivePeriodExpiry s = exec .drivePeriodExpiry u) ∧
  ((∀ (s : State) (w : Winch), (s.bus.drives.get w).timeoutDue = true →
    exec (.statusTimeout w) s = .next { s with
      bus := { s.bus with drives := s.bus.drives.set w { s.bus.drives.get w with timeoutDue := false } }
      hands := { s.hands with faults := s.hands.faults ++ [⟨.linkLost, some w⟩] } }) ∧
  (∀ (s : State) (p : Path), s.bus.keepaliveDue = true → s.path = some p →
    exec .keepalive s = .next { s with
      bus := { s.bus with
        keepaliveDue := false, countdown := 25
        slots := ⟨some ⟨p.lengths.w0, p.count, true⟩, some ⟨p.lengths.w1, p.count, true⟩,
          some ⟨p.lengths.w2, p.count, true⟩, some ⟨p.lengths.w3, p.count, true⟩⟩ } }))

/-- R160: with no frame in flight the arbiter begins the STOP frame when it is pending, and otherwise the lowest-numbered
set-point. In OFFLINE, PARKED and HALTED/STOPPED a set-point that it reaches with the brake flag clear is withdrawn from
its slot and the arbiter goes on to the next pending slot. While a frame is in flight, and with no slot pending, it
begins nothing. -/
def Obligations.ArbiterBeginsLowestIdentifier : Prop :=
    (∀ (s : State) (first : Option Cause), s.bus.flight = none → s.bus.stopSlot = some first →
    exec .transmitBegin s = .next { s with bus := { s.bus with
      stopSlot := none
      flight := some ⟨.stop first, s.settings.busTxBase, s.settings.busRate,
        [BitVec.ofNat 8 ((first.map Cause.code).getD 0)]⟩ } }) ∧
  (∀ (s : State) (w : Winch) (c : Setpoint), s.bus.flight = none → s.bus.stopSlot = none →
    s.bus.slots.get w = some c → (∀ v, v < w → s.bus.slots.get v = none) →
    (c.brake = true ∨ (s.carrier.mode ≠ .offline ∧ s.carrier.mode ≠ .parked ∧ s.carrier.mode ≠ .halted .stopped)) →
    exec .transmitBegin s = .next { s with bus := { s.bus with
      slots := s.bus.slots.set w none
      flight := some ⟨.setpoint w c, s.settings.busTxBase + 1 + w.val, s.settings.busRate,
        putU32 c.length.toNat ++ [c.seq, if c.brake then 1 else 0, 0, 0]⟩ } }) ∧
  (∀ s t : State, s.bus.flight = none → exec .transmitBegin s = .next t →
    s.carrier.mode = .offline ∨ s.carrier.mode = .parked ∨ s.carrier.mode = .halted .stopped →
    ∀ f, t.bus.flight = some f → (∃ first, f.content = .stop first) ∨ ∃ w c, f.content = .setpoint w c ∧ c.brake = true) ∧
  (∀ s : State, s.bus.flight = none → s.bus.stopSlot = none →
    s.carrier.mode = .offline ∨ s.carrier.mode = .parked ∨ s.carrier.mode = .halted .stopped →
    (∀ (w : Winch) (c : Setpoint), s.bus.slots.get w = some c → c.brake = true →
      (∀ v < w, ∀ d, s.bus.slots.get v = some d → d.brake = false) →
      let left := fun v : Winch => if v ≤ w then none else s.bus.slots.get v
      exec .transmitBegin s = .next { s with bus := { s.bus with
        slots := ⟨left 0, left 1, left 2, left 3⟩
        flight := some ⟨.setpoint w c, s.settings.busTxBase + 1 + w.val, s.settings.busRate,
          putU32 c.length.toNat ++ [c.seq, 1, 0, 0]⟩ } }) ∧
    ((∀ v d, s.bus.slots.get v = some d → d.brake = false) →
      exec .transmitBegin s = .next { s with bus := { s.bus with slots := .all none } })) ∧
  (∀ s : State, s.bus.flight ≠ none ∨ (s.bus.stopSlot = none ∧ ∀ w, s.bus.slots.get w = none) →
    exec .transmitBegin s = .next s)

/-- R161: the three ends of a transmission. A returned STOP is pending again unless a newer raise stands; a returned
set-point only when its slot and the STOP slot are empty; the failure that brings the count to 16 while rigged reports
LINK_LOST with the winch of the frame. -/
def Obligations.TransmissionEndsThreeWays : Prop :=
    ∀ (s : State) (f : Flight), s.bus.flight = some f →
    let back : Bus :=
      match f.content with
      | .stop first =>
          { s.bus with flight := none, stopSlot := if s.bus.stopSlot = none then some first else s.bus.stopSlot }
      | .setpoint w c =>
          { s.bus with
            flight := none
            slots := if s.bus.slots.get w = none ∧ s.bus.stopSlot = none then s.bus.slots.set w (some c) else s.bus.slots }
    let n := min (s.bus.failures + 1) 16
    exec (.transmissionEnd .acknowledged) s = .next { s with bus := { s.bus with flight := none, failures := 0 } } ∧
    exec (.transmissionEnd .lost) s = .next { s with bus := back } ∧
    exec (.transmissionEnd .failed) s = .next { s with
      bus := { back with failures := n }
      hands := { s.hands with
        faults := s.hands.faults
          ++ (if n = 16 ∧ s.bus.failures ≠ 16 ∧ s.rigged = true then [⟨.linkLost, f.content.winch⟩] else []) } }

/-- R164: an 11-bit frame that passes the acceptance test with a drive state code and at least three data bytes is stored
in its winch's record with both ages 0, FAULT reporting DRIVE_FAULT while rigged; every other frame changes nothing. -/
def Obligations.StatusIsAcceptedOrIgnored : Prop :=
    (∀ (s : State) (id : BitVec 11) (state : DriveState) (code fault echo : Byte) (more : List Byte),
    (id ^^^ s.settings.acceptCode) &&& s.settings.acceptMask = 0 → driveStateOf code = some state →
    exec (.statusReceived (.standard id (code :: fault :: echo :: more))) s = .next { s with
      bus := { s.bus with drives := s.bus.drives.set (Fin.ofNat 4 id.toNat) ⟨some 0, 0, some state, fault, echo, false⟩ }
      hands := { s.hands with
        faults := s.hands.faults
          ++ (if state = .fault ∧ s.rigged = true then [⟨.driveFault, some (Fin.ofNat 4 id.toNat)⟩] else []) } }) ∧
  (∀ (s : State) (id : BitVec 29) (data : List Byte), exec (.statusReceived (.extended id data)) s = .next s) ∧
  (∀ (s : State) (id : BitVec 11) (data : List Byte),
    data.length < 3 ∨ (id ^^^ s.settings.acceptCode) &&& s.settings.acceptMask ≠ 0 ∨ 3 < (data.getD 0 0).toNat →
    exec (.statusReceived (.standard id data)) s = .next s)

/-! ## Chapter 5: carrier control -/

/-- R73: RUN in HOLD with a move, no wind hold and the stopping box inside a keep-in enters TRAVEL and hands travel begun
with the next number.
R81, R95: STOP returns TRAVEL and STEER to HOLD, handing travel ended from TRAVEL, and RELEASE_STICK returns STEER to
HOLD; the stick is freed and the steer vector zeroed.
R92, R93: TAKE_STICK in HOLD enters STEER with a zero vector of age 50, and STEER stores its vector clamped to
SPEED_CAP with age 0 and is not answered.
R96, R97: PARK in HOLD at rest enters PARKED, and UNPARK returns to HOLD, from either port. STEER and PARK are given with
no step result standing at carrier control; one that stands is taken first (EventsTakeStandingResultsFirst). The details
of each CLOSE, 0, are the model's choice (entry 10). Each request is one that its owner takes
(RequestStagePassesOrRefuses). -/
def Obligations.CarrierRequestsChangeMode : Prop :=
  (∀ (tag : Byte) (s : State), s.takes .rig (.run .rig tag) = true → s.carrier.mode = .hold →
    s.queue.entries ≠ [] → s.carrier.windMirror = false → s.boxKeptIn = true →
    let c := { s.carrier with mode := .travel, stickOwned := false, begun := s.carrier.begun + 1 }
    exec (.run .rig tag) s = .next (State.served { s with
        carrier := c
        hands := { s.hands with travel := s.hands.travel ++ [.begun (s.carrier.begun + 1)] } }
      .rig (.run .rig tag) [closing tag .ok 0 0] [modeNews .run c .hold])) ∧
  ((∀ (p : Port) (tag : Byte) (s : State), s.takes p (.stop p tag) = true → s.carrier.mode = .travel →
    let c := { s.carrier with mode := .hold, stickOwned := false }
    exec (.stop p tag) s = .next (State.served { s with
        carrier := c, hands := { s.hands with travel := s.hands.travel ++ [.ended] } }
      p (.stop p tag) [closing tag .ok 0 0] [modeNews .stop c .travel])) ∧
  (∀ (p : Port) (tag : Byte) (s : State), s.takes p (.stop p tag) = true → s.carrier.mode = .steer →
    let c := { s.carrier with mode := .hold, stickOwned := false, steer := ⟨0, 0, 0⟩ }
    exec (.stop p tag) s = .next (State.served { s with carrier := c }
      p (.stop p tag) [closing tag .ok 0 0] [modeNews .stop c .steer])) ∧
  (∀ (tag : Byte) (s : State), s.takes .rig (.releaseStick .rig tag) = true → s.carrier.mode = .steer →
    let c := { s.carrier with mode := .hold, stickOwned := false, steer := ⟨0, 0, 0⟩ }
    exec (.releaseStick .rig tag) s = .next (State.served { s with carrier := c }
      .rig (.releaseStick .rig tag) [closing tag .ok 0 0] [modeNews .stickReleased c .steer]))) ∧
  ((∀ (tag : Byte) (s : State), s.takes .rig (.takeStick .rig tag) = true → s.carrier.mode = .hold →
    s.carrier.windMirror = false → s.boxKeptIn = true →
    let c := { s.carrier with mode := .steer, stickOwned := true, steer := ⟨0, 0, 0⟩, steerAge := 50 }
    exec (.takeStick .rig tag) s = .next (State.served { s with carrier := c }
      .rig (.takeStick .rig tag) [closing tag .ok 0 0] [modeNews .stickTaken c .hold])) ∧
  (∀ (tag : Byte) (v : Vec3) (s : State), s.takes .rig (.steer .rig tag v) = true → s.carrier.mode = .steer →
    s.hands.stepCarrier = none →
    let cap := s.settings.speedCap
    exec (.steer .rig tag v) s = .next (State.served { s with
        carrier := { s.carrier with
          steer := ⟨max (-cap) (min v.x cap), max (-cap) (min v.y cap), max (-cap) (min v.z cap)⟩, steerAge := 0 } }
      .rig (.steer .rig tag v) [] []))) ∧
  (∀ (p : Port) (tag : Byte) (s : State),
    (s.takes p (.park p tag) = true → s.carrier.mode = .hold → s.hands.stepCarrier = none →
      s.carrier.lastAtRest = true →
      let c := { s.carrier with mode := .parked, stickOwned := false }
      exec (.park p tag) s = .next (State.served { s with carrier := c }
        p (.park p tag) [closing tag .ok 0 0] [modeNews .park c .hold])) ∧
    (s.takes p (.unpark p tag) = true → s.carrier.mode = .parked →
      let c := { s.carrier with mode := .hold, stickOwned := false }
      exec (.unpark p tag) s = .next (State.served { s with carrier := c }
        p (.unpark p tag) [closing tag .ok 0 0] [modeNews .unpark c .parked])))

/-- R92, R73, R81, R93, R95 to R97, R108: the requests to carrier control that are refused, with the answer; nothing
else of the part changes. STEER and PARK are given with no step result standing at carrier control that they must follow: in
HALTED/STOPPING and while OFFLINE one may stand. The details of each CLOSE, 0, are the model's choice (entry 10). Each request is one that its owner takes (RequestStagePassesOrRefuses). -/
def Obligations.CarrierRequestsAreRefused : Prop :=
    ∀ (tag : Byte) (v : Vec3) (s : State),
    let m := s.carrier.mode
    let refusal := fun (p : Port) (c : Instr) (status : Status) => s.takes p c = true →
      exec c s = .next (s.served p c [closing tag status 0 0] [])
    let settled := s.carrierSettled
    refusal .safety (.run .safety tag) .notPermitted ∧ refusal .safety (.takeStick .safety tag) .notPermitted ∧
    (settled → refusal .safety (.steer .safety tag v) .notPermitted) ∧
    refusal .safety (.releaseStick .safety tag) .notPermitted ∧
    refusal .rig (.clearHalt .rig tag) .notPermitted ∧
    (m ≠ .hold → refusal .rig (.run .rig tag) .wrongMode ∧ refusal .rig (.takeStick .rig tag) .wrongMode ∧
      ∀ p, settled → refusal p (.park p tag) .wrongMode) ∧
    (m ≠ .steer → (settled → refusal .rig (.steer .rig tag v) .wrongMode) ∧
      refusal .rig (.releaseStick .rig tag) .wrongMode) ∧
    (m ≠ .parked → ∀ p, refusal p (.unpark p tag) .wrongMode) ∧
    (m ≠ .travel → m ≠ .steer → ∀ p, refusal p (.stop p tag) .wrongMode) ∧
    (m = .offline → ∀ p, refusal p (.halt p tag) .wrongMode) ∧
    (m = .hold → settled → s.carrier.lastAtRest = false → ∀ p, refusal p (.park p tag) .notAtRest) ∧
    (m = .hold → s.queue.entries = [] → refusal .rig (.run .rig tag) .noRecord) ∧
    (m = .hold → s.queue.entries ≠ [] → s.carrier.windMirror = true → refusal .rig (.run .rig tag) .windHold) ∧
    (m = .hold → s.carrier.windMirror = true → refusal .rig (.takeStick .rig tag) .windHold) ∧
    (m = .hold → s.queue.entries ≠ [] → s.carrier.windMirror = false → s.boxKeptIn = false →
      refusal .rig (.run .rig tag) .conflict) ∧
    (m = .hold → s.carrier.windMirror = false → s.boxKeptIn = false →
      refusal .rig (.takeStick .rig tag) .conflict) ∧
    (m.isHalted = false → refusal .safety (.clearHalt .safety tag) .wrongMode) ∧
    (m.isHalted = true → s.carrier.poseLost = true → refusal .safety (.clearHalt .safety tag) .poseLost) ∧
    (m = .halted .stopping → s.carrier.poseLost = false → refusal .safety (.clearHalt .safety tag) .wrongMode)

/-- R99 to R102, R104, R105: carrier control takes a report of a halt cause by its class and the mode: the oldest fault
report that stands, the e-stop line becoming active, a report of ESTOP, and HALT from either port, one of REQUEST; in
every mode (HALT in OFFLINE is refused, CarrierRequestsAreRefused). Each is given with no step result standing at carrier
control that it must follow: one that stands is taken first (EventsTakeStandingResultsFirst), but in HALTED/STOPPING, where
either may come first (R110), and while OFFLINE. The line's other changes of level are stored
and do nothing else: the model's choice (entry 11), as are the details of HALT's CLOSE (entry 10). Each request is
one that its owner takes (RequestStagePassesOrRefuses). -/
def Obligations.ReportsAndLineHalt : Prop :=
  (∀ (s base : State) (c : Instr) (r : Report) (ends : State → List Notice → State), s.carrierSettled →
    (∃ rest, c = .faultReport ∧ s.hands.faults = r :: rest ∧ base = { s with hands := { s.hands with faults := rest } } ∧
        ends = State.told) ∨
      (c = .estopActive true ∧ s.estop = false ∧ r = ⟨.estop, none⟩ ∧ base = { s with estop := true } ∧
        ends = State.told) ∨
      (∃ p tag, c = .halt p tag ∧ s.takes p c = true ∧ s.carrier.mode ≠ .offline ∧ r = ⟨.request, none⟩ ∧ base = s ∧
        ends = fun t ns => t.served p c [closing tag .ok 0 0] ns) →
    let m := s.carrier.mode
    let first := if s.carrier.causes = [] then some r else s.carrier.first
    let causes := s.carrier.causes ++ [r.cause]
    let h := base.hands
    let raised := fun (c : Carrier) => Notice.halt .raised (some r) c.causes c.first c.poseLost
    let travel := if m = .travel then h.travel ++ [.ended] else h.travel
    let steer : Vec3 := if m = .steer then ⟨0, 0, 0⟩ else s.carrier.steer
    (m = .offline ∨ r.cause ∈ s.carrier.causes → exec c s = .next (ends base [])) ∧
    (m = .hold ∨ m = .steer ∨ m = .travel → r.cause ∉ s.carrier.causes → r.cause.immediate = false →
      let k := { s.carrier with
        mode := .halted .stopping, stickOwned := false, steer := steer, causes := causes, first := first }
      exec c s = .next (ends { base with carrier := k, hands := { h with travel := travel } }
        [raised k, modeNews .halt k m])) ∧
    (m = .parked → r.cause ∉ s.carrier.causes → r.cause.immediate = false →
      let k := { s.carrier with mode := .halted .stopped, stickOwned := false, causes := causes, first := first }
      exec c s = .next (ends { base with carrier := k, hands := { h with raises := h.raises ++ [.entry] } }
        [raised k, modeNews .halt k m])) ∧
    (m ≠ .offline → m ≠ .halted .stopped → r.cause ∉ s.carrier.causes → r.cause.immediate = true →
      let k := { s.carrier with
        mode := .halted .stopped, stickOwned := false, steer := steer, causes := causes, first := first,
        poseLost := true }
      exec c s = .next (ends { base with
          carrier := k, hands := { h with raises := h.raises ++ [.entry], freeze := true, travel := travel } }
        [raised k, modeNews (if m.isHalted then .escalated else .halt) k m])) ∧
    (m.isHalted = true → r.cause ∉ s.carrier.causes → r.cause.immediate = false →
      let k := { s.carrier with causes := causes, first := first }
      exec c s = .next (ends { base with carrier := k } [raised k])) ∧
    (m = .halted .stopped → r.cause ∉ s.carrier.causes → r.cause = .driveFault ∨ r.cause = .linkLost →
      let k := { s.carrier with causes := causes, first := first }
      exec c s = .next (ends { base with carrier := k, hands := { h with raises := h.raises ++ [.again] } } [raised k])) ∧
    (m = .halted .stopped → r.cause ∉ s.carrier.causes → r.cause = .tracking → s.carrier.poseLost = false →
      let k := { s.carrier with causes := causes, first := first, poseLost := true }
      exec c s = .next (ends { base with carrier := k, hands := { h with raises := h.raises ++ [.again] } }
        [raised k, modeNews .halt k m]))) ∧
  (∀ s : State, exec (.estopActive false) s = .next { s with estop := false }) ∧
  (∀ s : State, s.estop = true → exec (.estopActive true) s = .next s)

/-- R90, R103: a step result is stored and ages the stick; in HALTED/STOPPING one at rest ends the controlled stop. That a
step result taken while OFFLINE has no effect is the model's choice (entry 12).
R72: end travel with the number of the travel begun handed last returns TRAVEL to HOLD; any other has no effect.
R98: a wind hold that is set leaves STEER and TRAVEL for HOLD, with travel ended from TRAVEL; in the other rigged
modes, and when it is cleared, only the mirror follows; while OFFLINE it has no effect. -/
def Obligations.CarrierTakesHandOffs : Prop :=
  (∀ (s : State) (r : StepResult), s.hands.stepCarrier = some r →
    let h := { s.hands with stepCarrier := none }
    let c := { s.carrier with lastAtRest := r.atRest, steerAge := min (s.carrier.steerAge + 1) 50 }
    (s.carrier.mode = .offline → exec .carrierStepResult s = .next { s with hands := h }) ∧
    (s.carrier.mode ≠ .offline → ¬(s.carrier.mode = .halted .stopping ∧ r.atRest = true) →
      exec .carrierStepResult s = .next { s with carrier := c, hands := h }) ∧
    (s.carrier.mode = .halted .stopping → r.atRest = true →
      let c' := { c with mode := .halted .stopped, stickOwned := false }
      exec .carrierStepResult s = .next (State.told { s with
          carrier := c', hands := { h with raises := h.raises ++ [.entry] } }
        [modeNews .stopped c' (.halted .stopping)]))) ∧
  (∀ (s : State) (h : EndHand) (rest : List EndHand), s.hands.ends = h :: rest →
    let left := { s with hands := { s.hands with ends := rest } }
    let c := { s.carrier with mode := .hold, stickOwned := false }
    (s.carrier.mode = .travel → h.number = s.carrier.begun →
      exec .endTravel s = .next (State.told { left with carrier := c } [modeNews .endTravel c .travel (some h.reason)])) ∧
    (s.carrier.mode ≠ .travel ∨ h.number ≠ s.carrier.begun → exec .endTravel s = .next left)) ∧
  (∀ (s : State) (hold : Bool) (rest : List Bool), s.hands.windChanges = hold :: rest →
    let h := { s.hands with windChanges := rest }
    let c := { s.carrier with windMirror := hold }
    let grounded := { c with mode := .hold, stickOwned := false }
    (s.carrier.mode = .offline → exec .windHoldChange s = .next { s with hands := h }) ∧
    (s.carrier.mode ≠ .offline → hold = false ∨ (s.carrier.mode ≠ .steer ∧ s.carrier.mode ≠ .travel) →
      exec .windHoldChange s = .next { s with carrier := c, hands := h }) ∧
    (hold = true → s.carrier.mode = .steer →
      let c' := { grounded with steer := ⟨0, 0, 0⟩ }
      exec .windHoldChange s = .next (State.told { s with carrier := c', hands := h } [modeNews .wind c' .steer])) ∧
    (hold = true → s.carrier.mode = .travel →
      exec .windHoldChange s = .next (State.told { s with
          carrier := grounded, hands := { h with travel := h.travel ++ [.ended] } } [modeNews .wind grounded .travel])))

/-- R108, R109: CLEAR_HALT in HALTED/STOPPED with the pose held and no condition of Table 5-5 left empties the set and
returns to HOLD. Otherwise it is refused with HALT_ACTIVE by the first condition that holds, in the order of the table
and by ascending winch within a row, with the code of its cause. That a status age that is absent holds no condition is
the model's choice (entry 24), as are the CLOSE details that no rule gives (entry 10). Each request is one that its
owner takes (RequestStagePassesOrRefuses). -/
def Obligations.ClearHaltTestsConditions : Prop :=
    ∀ (tag : Byte) (s : State), s.takes .safety (.clearHalt .safety tag) = true →
    s.carrier.mode = .halted .stopped → s.carrier.poseLost = false →
    let c : Instr := .clearHalt .safety tag
    let k := { s.carrier with mode := .hold, stickOwned := false, causes := [], first := none }
    let row : Nat → Winch → Prop := fun n w =>
      match n with
      | 0 => winchFresh s.settings s.tension w = false
      | 1 => s.settings.tensionMax.get w ≤ (s.tension.winches.get w).tension
      | 2 => (s.tension.winches.get w).tension ≤ s.settings.tensionSlack.get w
      | 3 => 4 ≤ (s.drums.get w).illegal
      | 4 => (s.bus.drives.get w).state = some .fault
      | _ => ∃ a, (s.bus.drives.get w).statusAge = some a ∧ 60 ≤ a
    let code : Nat → Nat := fun n =>
      match n with
      | 0 => 5
      | 1 => 3
      | 2 => 4
      | 3 => 6
      | 4 => 8
      | _ => 9
    (s.estop = false → (∀ n < 6, ∀ w, ¬row n w) →
      exec c s = .next (State.served { s with carrier := k } .safety c [closing tag .ok 0 0]
        [.halt .cleared none [] none false, modeNews .cleared k (.halted .stopped)])) ∧
    (s.estop = true → exec c s = .next (s.served .safety c [closing tag .haltActive 1 0] [])) ∧
    (∀ n < 6, ∀ w, s.estop = false → row n w → (∀ v < w, ¬row n v) → (∀ m < n, ∀ v, ¬row m v) →
      exec c s = .next (s.served .safety c [closing tag .haltActive (code n) w.val] []))

/-! ## Chapter 2: zones -/

/-- R24, R30, R34, R40, R41: a step result taken while rigged becomes the reference box; each PENDING keep-out that does not
meet it becomes ACTIVE; in ascending number, each OVERDUE keep-in is retired unless it alone of those that are left
contains the box. Each activation and retirement sends its notice, in ascending number, and the changes in force are handed
as one report. No other record changes. -/
def Obligations.StepResultActivatesAndResolves : Prop :=
    ∀ (s : State) (r : StepResult), s.tablesLegal → s.rigged = true → s.hands.changes = [] → s.hands.stepZone = some r →
    ∃ gone : List Nat,
      (∀ z ∈ s.zones, z.number ∈ gone ↔ z.kind = .keepIn ∧ z.state = .overdue ∧
        (z.shrunk.contains r.box = false ∨
          ∃ y ∈ s.zones, y.number ≠ z.number ∧ y.kind = .keepIn ∧ (y.state = .active ∨ y.state = .overdue) ∧
            y.shrunk.contains r.box = true ∧ ¬(y.number < z.number ∧ y.number ∈ gone))) ∧
      let wakes := fun z : Zone => z.kind = .keepOut ∧ z.state = .pending ∧ z.expanded.meets r.box = false
      let moved := s.zones.filter (fun z => decide (wakes z ∨ z.number ∈ gone))
      exec .zoneStepResult s = .next (State.told { s with
          zones := s.zones.filterMap (fun z =>
            if wakes z then some { z with state := .active } else if z.number ∈ gone then none else some z)
          refBox := some r.box
          hands := { s.hands with
            stepZone := none, changes := if moved = [] then [] else [moved.map Zone.number] } }
        (moved.map (fun z => if wakes z then .zone .activated { z with state := .active } else .zone .resolved z)))

/-- R38, R39, R41: a second tick takes one second from every lifetime. In ascending number, a record that comes to its end
lapses: it is retired with reason LAPSED, or, a keep-in that alone of those that are left contains the reference box,
becomes OVERDUE without a lifetime. The notices are in ascending number, and the changes in force are handed as one
report. A step result that stands is taken first (EventsTakeStandingResultsFirst).
R39 (the row by itself: the model's choice, entry 2): a record whose lifetime stands at 0 lapses. -/
def Obligations.LifetimesCountAndLapse : Prop :=
  (∀ s : State, s.tablesLegal → s.zonesSettled = true →
    let ends := fun z : Zone => ∃ k, z.lifetime = some k ∧ k ≤ 1
    ∃ late : List Nat,
      (∀ z ∈ s.zones, z.number ∈ late ↔
        ends z ∧ z.kind = .keepIn ∧ (z.state = .active ∨ z.state = .overdue) ∧
          ∃ r, s.refBox = some r ∧ z.shrunk.contains r = true ∧
            ∀ y ∈ s.zones, y.number ≠ z.number → y.kind = .keepIn → (y.state = .active ∨ y.state = .overdue) →
              y.shrunk.contains r = true → ends y ∧ y.number < z.number ∧ y.number ∉ late) ∧
      let lapsed := s.zones.filter (fun z => z.lifetime.any (fun k => decide (k ≤ 1)))
      let changed := (lapsed.filter (fun z => z.state != .pending)).map Zone.number
      exec .zoneSecondTick s = .next (State.told { s with
          zones := s.zones.filterMap (fun z =>
            match z.lifetime with
            | none => some z
            | some k =>
                if 1 < k then some { z with lifetime := some (k - 1) }
                else if z.number ∈ late then some { z with state := .overdue, lifetime := none } else none)
          hands := { s.hands with changes := if changed = [] then [] else [changed] } }
        (lapsed.map (fun z =>
          if z.number ∈ late then .zone .overdue { z with state := .overdue, lifetime := none }
          else .zone .lapsed { z with lifetime := some 0 })))) ∧
  (∀ (s : State) (n : Nat) (z : Zone), s.zonesSettled = true → zoneAt s.zones n = some z → z.lifetime = some 0 →
    let used := z.kind = .keepIn ∧ inUse s.refBox s.zones z = true
    let h := { s.hands with changes := if z.state = .pending then [] else [[n]] }
    (¬used → exec (.zoneLapse n) s = .next (State.told { s with
        zones := s.zones.filter (fun y => y.number != n), hands := h } [.zone .lapsed z])) ∧
    (used →
      let z' := { z with state := .overdue, lifetime := none }
      exec (.zoneLapse n) s = .next (State.told { s with
        zones := s.zones.map (fun y => if y.number = n then z' else y), hands := h } [.zone .overdue z'])))

/-- R27 to R29: an accepted ZONE_ADD takes the lowest free number. A keep-out, from either port, is PENDING and DEFERRED
when its expanded box meets the reference box, and otherwise ACTIVE with a change in force; a keep-in, from the safety
port, is ACTIVE when its shrunk box is not empty and, while rigged, passes the line-range test.
The refusals of R27 and R28 in their order, and R2's and R27's tests of an extent.
R21: the number a new zone takes is free, in range and the lowest such, and there is none only when 48 are held. Each
request is one that its owner takes (RequestStagePassesOrRefuses). -/
def Obligations.ZoneAddTakesLowestNumber : Prop :=
  (∀ (p : Port) (tag : Byte) (b : ZoneAddBody) (n : Nat) (s : State), s.takes p (.zoneAdd p tag b) = true →
    s.zonesSettled = true → extentFault b.least b.greatest = none → b.lifetime ≤ 14400 → freeNumber s.zones = some n →
    let status : Status := if 5000 < b.margin then .clamped else .ok
    let detail := if 5000 < b.margin then 1 else 0
    let z := fun (kind : ZoneKind) (st : ZoneState) => (⟨n, kind, p, st, .opened, b.least, b.greatest, min b.margin 5000,
      if b.lifetime = 0 then none else some b.lifetime⟩ : Zone)
    let admitted := fun (z : Zone) (changes : List (List Nat)) (status : Status) =>
      exec (.zoneAdd p tag b) s = .next (State.served { s with
          zones := insertZone z s.zones, hands := { s.hands with changes := changes } }
        p (.zoneAdd p tag b) [closing tag status n detail] [.zone .added z])
    (b.kind = 0 → (∀ r, s.refBox = some r → (z .keepOut .active).expanded.meets r = false) →
      admitted (z .keepOut .active) [[n]] status) ∧
    (b.kind = 0 → (∃ r, s.refBox = some r ∧ (z .keepOut .active).expanded.meets r = true) →
      admitted (z .keepOut .pending) [] .deferred) ∧
    (b.kind = 1 → p = .safety → (z .keepIn .active).shrunk.inhabited →
      (s.rigged = true → lineRangeFault s.settings (z .keepIn .active).shrunk = none) →
      admitted (z .keepIn .active) [[n]] status)) ∧
  (∀ zones : List Zone,
    (∀ n, freeNumber zones = some n ↔
      1 ≤ n ∧ n ≤ 48 ∧ (∀ z ∈ zones, z.number ≠ n) ∧ ∀ m, 1 ≤ m → m < n → ∃ z ∈ zones, z.number = m) ∧
    (freeNumber zones = none ↔ ∀ m, 1 ≤ m → m ≤ 48 → ∃ z ∈ zones, z.number = m)) ∧
  (∀ least greatest : Vec3,
    let out := fun (lo hi n : Int) => decide (n < lo ∨ hi < n)
    extentFault least greatest = (([(out (-100000) 100000 least.x, 0), (out (-100000) 100000 least.y, 1),
      (out 0 80000 least.z, 2), (out (-100000) 100000 greatest.x, 0), (out (-100000) 100000 greatest.y, 1),
      (out 0 80000 greatest.z, 2), (decide (greatest.x < least.x), 3), (decide (greatest.y < least.y), 4),
      (decide (greatest.z < least.z), 5)] : List (Bool × Nat)).find? Prod.fst).map Prod.snd) ∧
  (∀ (p : Port) (tag : Byte) (b : ZoneAddBody) (s : State), s.zonesSettled = true →
    let c : Instr := .zoneAdd p tag b
    s.takes p c = true →
    let refused := fun (status : Status) (code : Nat) => exec c s = .next (s.served p c [closing tag status 0 code] [])
    let full := ∀ m, 1 ≤ m → m ≤ 48 → ∃ z ∈ s.zones, z.number = m
    let box := Zone.shrunk ⟨1, .keepIn, p, .active, .opened, b.least, b.greatest, min b.margin 5000, none⟩
    let passes := fun w : Winch => lineRangeAt (s.settings.anchor.get w) (s.settings.lenMin.get w) (s.settings.lenMax.get w) box
    (1 < b.kind → refused .outOfRange 7) ∧
    (b.kind = 1 → p = .rig → refused .notPermitted 0) ∧
    (b.kind = 0 ∨ (b.kind = 1 ∧ p = .safety) →
      (∀ code, extentFault b.least b.greatest = some code → refused .outOfRange code) ∧
      (extentFault b.least b.greatest = none →
        (14400 < b.lifetime → refused .outOfRange 6) ∧
        (b.lifetime ≤ 14400 →
          (full → refused .tableFull 0) ∧
          (b.kind = 1 → ¬full →
            (box.hi.x < box.lo.x → refused .conflict 0) ∧
            (box.lo.x ≤ box.hi.x → box.hi.y < box.lo.y → refused .conflict 1) ∧
            (box.lo.x ≤ box.hi.x → box.lo.y ≤ box.hi.y → box.hi.z < box.lo.z → refused .conflict 2) ∧
            (∀ w, box.inhabited → s.rigged = true → passes w = false → (∀ v < w, passes v = true) →
              refused .conflict (0x10 + w.val)))))))

/-- R25, R26, R31 to R33: a ZONE_EDIT of a record that may be edited replaces extent and margin, and the lifetime by KEEP,
CLEAR or SET. An ACTIVE keep-out must stay clear of the reference box; a PENDING one stays PENDING and is DEFERRED; a
keep-in must pass its box tests and, when it alone contains the reference box, still contain it; an OVERDUE one becomes ACTIVE
by CLEAR or SET. The refusals in their order. R34, R35: ZONE_RETIRE removes the record, and its refusals in their
order. Each request is one that its owner takes (RequestStagePassesOrRefuses). -/
def Obligations.ZoneEditAndRetire : Prop :=
  (∀ (p : Port) (tag : Byte) (b : ZoneEditBody) (s : State), s.zonesSettled = true →
    let c : Instr := .zoneEdit p tag b
    s.takes p c = true →
    let refused := fun (status : Status) (code : Nat) =>
      exec c s = .next (s.served p c [closing tag status b.zone code] [])
    (zoneAt s.zones b.zone = none → refused .noRecord 0) ∧
    ∀ z, zoneAt s.zones b.zone = some z →
      (p = .rig → z.origin = .safety → refused .notPermitted 0) ∧
      (p = .safety ∨ z.origin = .rig →
        (z.lock ≠ .opened → refused .locked 0) ∧
        (z.lock = .opened →
          (∀ code, extentFault b.least b.greatest = some code → refused .outOfRange code) ∧
          (extentFault b.least b.greatest = none →
            (2 < b.instruction → refused .outOfRange 7) ∧
            (b.instruction = 2 → b.lifetime = 0 ∨ 14400 < b.lifetime → refused .outOfRange 6) ∧
            ∀ life, (b.instruction = 0 ∧ life = z.lifetime) ∨ (b.instruction = 1 ∧ life = none) ∨
                (b.instruction = 2 ∧ 1 ≤ b.lifetime ∧ b.lifetime ≤ 14400 ∧ life = some b.lifetime) →
              let z' := fun st : ZoneState => { z with
                least := b.least, greatest := b.greatest, margin := min b.margin 5000, lifetime := life, state := st }
              let status : Status :=
                if z.state = .pending then .deferred else if 5000 < b.margin then .clamped else .ok
              let accepted := fun st : ZoneState =>
                exec c s = .next (State.served { s with
                    zones := s.zones.map (fun y => if y.number = b.zone then z' st else y)
                    hands := { s.hands with changes := if z.state = .pending then [] else [[b.zone]] } }
                  p c [closing tag status b.zone (if 5000 < b.margin then 1 else 0)] [.zone .edited (z' st)])
              let out := (z' z.state).expanded
              let box := (z' z.state).shrunk
              let passes := fun w : Winch =>
                lineRangeAt (s.settings.anchor.get w) (s.settings.lenMin.get w) (s.settings.lenMax.get w) box
              let leaves := inUse s.refBox s.zones z = true ∧ ∃ r, s.refBox = some r ∧ box.contains r = false
              (z.kind = .keepOut →
                (z.state = .active → (∃ r, s.refBox = some r ∧ out.meets r = true) → refused .conflict 0x20) ∧
                ((z.state = .active → ∀ r, s.refBox = some r → out.meets r = false) → accepted z.state)) ∧
              (z.kind = .keepIn →
                (box.hi.x < box.lo.x → refused .conflict 0) ∧
                (box.lo.x ≤ box.hi.x → box.hi.y < box.lo.y → refused .conflict 1) ∧
                (box.lo.x ≤ box.hi.x → box.lo.y ≤ box.hi.y → box.hi.z < box.lo.z → refused .conflict 2) ∧
                (box.inhabited →
                  (∀ w, s.rigged = true → passes w = false → (∀ v < w, passes v = true) →
                    refused .conflict (0x10 + w.val)) ∧
                  ((s.rigged = true → ∀ w, passes w = true) →
                    (leaves → refused .inUse 0) ∧
                    (¬leaves → accepted (if z.state = .overdue ∧ b.instruction ≠ 0 then .active else z.state))))))))) ∧
  (∀ (p : Port) (tag : Byte) (n : Nat) (s : State), s.zonesSettled = true →
    let c : Instr := .zoneRetire p tag n
    s.takes p c = true →
    let refused := fun status : Status => exec c s = .next (s.served p c [closing tag status n 0] [])
    (zoneAt s.zones n = none → refused .noRecord) ∧
    ∀ z, zoneAt s.zones n = some z →
      let used := z.kind = .keepIn ∧ inUse s.refBox s.zones z = true
      (p = .rig → z.origin = .safety → refused .notPermitted) ∧
      (p = .safety ∨ z.origin = .rig →
        (z.lock ≠ .opened → refused .locked) ∧
        (z.lock = .opened → used → refused .inUse) ∧
        (z.lock = .opened → ¬used → exec c s = .next (State.served { s with
            zones := s.zones.filter (fun y => y.number != n)
            hands := { s.hands with changes := if z.state = .pending then [] else [[n]] } }
          p c [closing tag .ok n 0] [.zone .request z])))) ∧
  (∀ (ref : Option Box) (zones : List Zone) (z : Zone), inUse ref zones z = true ↔
    ∃ r, ref = some r ∧ z.kind = .keepIn ∧ (z.state = .active ∨ z.state = .overdue) ∧ z.shrunk.contains r = true ∧
      ∀ y ∈ zones, y.number ≠ z.number → y.kind = .keepIn → (y.state = .active ∨ y.state = .overdue) →
        y.shrunk.contains r = false)

/-- R36, Table 2-2: ZONE_LOCK and ZONE_UNLOCK, from either port, on a number that a record holds or not, and on a record
of each lock. A change of lock alters nothing else of the record and is no change in force. Each request is one that
its owner takes (RequestStagePassesOrRefuses). -/
def Obligations.LockRequestsFollowTable : Prop :=
    ∀ (tag : Byte) (n : Nat) (s : State), s.zonesSettled = true →
    let relocked := fun (z : Zone) (c : Instr) (lock : ZoneLock) (reason : ZoneReason) => s.takes .safety c = true →
      exec c s = .next (State.served { s with
          zones := s.zones.map (fun y => if y.number = n then { z with lock := lock } else y) }
        .safety c [closing tag .ok n 0] [.zone reason { z with lock := lock }])
    let answered := fun (p : Port) (c : Instr) (status : Status) => s.takes p c = true →
      exec c s = .next (s.served p c [closing tag status n 0] [])
    answered .rig (.zoneLock .rig tag n) .notPermitted ∧ answered .rig (.zoneUnlock .rig tag n) .notPermitted ∧
    (zoneAt s.zones n = none →
      answered .safety (.zoneLock .safety tag n) .noRecord ∧ answered .safety (.zoneUnlock .safety tag n) .noRecord) ∧
    ∀ z, zoneAt s.zones n = some z →
      (z.lock = .opened → relocked z (.zoneLock .safety tag n) .locked .locked ∧
        answered .safety (.zoneUnlock .safety tag n) .ok) ∧
      (z.lock = .locked → relocked z (.zoneUnlock .safety tag n) .opened .unlocked ∧
        answered .safety (.zoneLock .safety tag n) .ok) ∧
      (z.lock = .fixed → answered .safety (.zoneLock .safety tag n) .locked ∧
        answered .safety (.zoneUnlock .safety tag n) .locked ∧ answered .safety (.zoneFix .safety tag n) .ok)

/-- R37, R43, R44: ZONE_FIX of a record without a lifetime that is not OVERDUE makes it FIXED, and refuses the others with
0x30; it answers OK to a FIXED record, and is refused from the rig port and for a number that no record holds. ZONE_READ
answers with the whole record. ZONE_LIST with a listed filter and code enters service, and is refused for any other. That detail1 of a refused
ZONE_LIST is 0 is the model's choice (entry 10). Each request is one that its owner takes
(RequestStagePassesOrRefuses). -/
def Obligations.ZoneFixReadAndList : Prop :=
    (∀ (tag : Byte) (n : Nat) (z : Zone) (s : State), s.takes .safety (.zoneFix .safety tag n) = true →
    s.zonesSettled = true → zoneAt s.zones n = some z → z.lock ≠ .fixed →
    (z.lifetime = none → z.state ≠ .overdue →
      exec (.zoneFix .safety tag n) s = .next (State.served { s with
          zones := s.zones.map (fun y => if y.number = n then { z with lock := .fixed } else y) }
        .safety (.zoneFix .safety tag n) [closing tag .ok n 0] [.zone .fixed { z with lock := .fixed }])) ∧
    (z.lifetime ≠ none ∨ z.state = .overdue →
      exec (.zoneFix .safety tag n) s =
        .next (s.served .safety (.zoneFix .safety tag n) [closing tag .conflict n 0x30] []))) ∧
  (∀ (p : Port) (tag : Byte) (n : Nat) (s : State), s.takes p (.zoneFix p tag n) = true → s.zonesSettled = true →
    let answered := fun (status : Status) =>
      exec (.zoneFix p tag n) s = .next (s.served p (.zoneFix p tag n) [closing tag status n 0] [])
    (p = .rig → answered .notPermitted) ∧ (p = .safety → zoneAt s.zones n = none → answered .noRecord) ∧
    (∀ z, p = .safety → zoneAt s.zones n = some z → z.lock = .fixed → answered .ok)) ∧
  (∀ (p : Port) (tag : Byte) (n : Nat) (s : State), s.takes p (.zoneRead p tag n) = true → s.zonesSettled = true →
    (∀ z, zoneAt s.zones n = some z →
      exec (.zoneRead p tag n) s = .next (s.served p (.zoneRead p tag n) [closingItem tag (.zone z) .ok n 0] [])) ∧
    (zoneAt s.zones n = none →
      exec (.zoneRead p tag n) s = .next (s.served p (.zoneRead p tag n) [closing tag .noRecord n 0] []))) ∧
  (∀ (p : Port) (tag : Byte) (filter code : Nat) (s : State), s.takes p (.zoneList p tag filter code) = true →
    s.zonesSettled = true →
    (∀ f, (filter = 0 ∧ f = .all) ∨ (filter = 1 ∧ code = 0 ∧ f = .kind .keepOut) ∨
        (filter = 1 ∧ code = 1 ∧ f = .kind .keepIn) ∨ (filter = 2 ∧ code = 0 ∧ f = .state .pending) ∨
        (filter = 2 ∧ code = 1 ∧ f = .state .active) ∨ (filter = 2 ∧ code = 2 ∧ f = .state .overdue) →
      let u := s.served p (.zoneList p tag filter code) [] []
      exec (.zoneList p tag filter code) s =
        .next (u.setPort p { u.port p with service := some ⟨.zones f 0, tag, 0⟩ })) ∧
    (2 < filter ∨ (filter = 1 ∧ 1 < code) ∨ (filter = 2 ∧ 2 < code) → exec (.zoneList p tag filter code) s =
      .next (s.served p (.zoneList p tag filter code) [closing tag .outOfRange 0 7] [])))

/-! ## Chapter 3: marks -/

/-- R53 to R55, R57: an accepted MARK_SET or MARK_HERE stores the record with the mark test's verdict on its point, and
reports a replacement.
The refusals of R53 and R55 in their order, and R53's test of a label.
R55: a coordinate is rounded to the nearest millimetre, halves away from zero. Each request is one that its owner
takes (RequestStagePassesOrRefuses). -/
def Obligations.MarkSetAndHereStore : Prop :=
  (∀ (p : Port) (tag : Byte) (n : Nat) (point : Vec3) (cap : Nat) (label : List Byte) (c : Instr) (s : State),
    s.hands.changes = [] → n ≤ 63 → positionFault point = none → labelFault label = none →
    (c = .markSet p tag ⟨n, point, cap, label⟩ ∨
      (c = .markHere p tag ⟨n, cap, label⟩ ∧ s.carrier.mode ≠ .offline ∧ s.carrier.poseLost = false ∧
        ∃ q, s.path = some q ∧ point = ⟨roundToMm q.pose.x, roundToMm q.pose.y, roundToMm q.pose.z⟩)) →
    s.takes p c = true →
    let kept : Option Nat := if cap = 0 then none else some (min (max cap 100) s.settings.speedCap.toNat)
    let clamped := kept ≠ none ∧ kept ≠ some cap
    let verdict := markTest s.zones point
    let m : Mark := ⟨n, point, kept, label, verdict.1, verdict.2⟩
    let close := closing tag (if clamped then .clamped else .ok) n (if clamped then 1 else 0)
    (markAt s.marks n = none →
      exec c s = .next (State.served { s with marks := insertMark m s.marks } p c [close] [.mark .set none m])) ∧
    (∀ old, markAt s.marks n = some old →
      exec c s = .next (State.served { s with
          marks := insertMark m s.marks
          hands := { s.hands with
            markReports := s.hands.markReports ++ .replaced n ::
              (if m.state = old.state then [] else [.changed [(n, m.state)]]) } }
        p c [close] [.mark .replaced (some old.state) m]))) ∧
  (∀ um : Int, |um - 1000 * roundToMm um| ≤ 500 ∧ (um - 1000 * roundToMm um = 500 → um < 0) ∧
    (um - 1000 * roundToMm um = -500 → 0 < um)) ∧
  (∀ label : List Byte,
    (16 < label.length → labelFault label = some 6) ∧
    (label.length ≤ 16 →
      ((∀ b ∈ label, 0x20 ≤ b.toNat ∧ b.toNat ≤ 0x7E) → labelFault label = none) ∧
      ∀ before b after, label = before ++ b :: after → (b.toNat < 0x20 ∨ 0x7E < b.toNat) →
        (∀ x ∈ before, 0x20 ≤ x.toNat ∧ x.toNat ≤ 0x7E) → labelFault label = some (0x10 + before.length))) ∧
  (∀ (p : Port) (tag : Byte) (n : Nat) (point : Vec3) (cap : Nat) (label : List Byte) (s : State), s.hands.changes = [] →
    let put : Instr := .markSet p tag ⟨n, point, cap, label⟩
    let here : Instr := .markHere p tag ⟨n, cap, label⟩
    let refused := fun (c : Instr) (status : Status) (code : Nat) => s.takes p c = true →
      exec c s = .next (s.served p c [closing tag status n code] [])
    (63 < n → refused put .outOfRange 5 ∧ refused here .outOfRange 5) ∧
    (n ≤ 63 →
      (∀ axis, positionFault point = some axis → refused put .outOfRange axis) ∧
      (∀ code, positionFault point = none → labelFault label = some code → refused put .outOfRange code) ∧
      (s.carrier.mode = .offline → refused here .wrongMode 0) ∧
      ∀ q, s.path = some q → s.carrier.mode ≠ .offline →
        (s.carrier.poseLost = true → refused here .poseLost 0) ∧
        (s.carrier.poseLost = false →
          (∀ code, labelFault label = some code → refused here .outOfRange code) ∧
          ∀ axis, labelFault label = none →
            positionFault ⟨roundToMm q.pose.x, roundToMm q.pose.y, roundToMm q.pose.z⟩ = some axis →
            refused here .outOfRange axis)))

/-- R51: a point inside the expanded box of an ACTIVE keep-out is BLOCKED by the lowest-numbered one; otherwise it is
CLEAR exactly when some keep-in in force contains it, and BLOCKED with blocker 0 when none does. -/
def Obligations.MarkTestFindsBlocker : Prop :=
    ∀ (zones : List Zone) (point : Vec3), zones.Pairwise (fun a b => a.number < b.number) →
    let um : Vec3 := ⟨1000 * point.x, 1000 * point.y, 1000 * point.z⟩
    let hit := fun (z : Zone) => z ∈ zones ∧ z.kind = .keepOut ∧ z.state = .active ∧ z.expanded.holds um = true
    let kept := ∃ z ∈ zones, z.kind = .keepIn ∧ (z.state = .active ∨ z.state = .overdue) ∧ z.shrunk.holds um = true
    (∀ z, hit z → (∀ y, hit y → z.number ≤ y.number) → markTest zones point = (.blocked, z.number)) ∧
    ((∀ z, ¬hit z) → kept → markTest zones point = (.clear, 0)) ∧
    ((∀ z, ¬hit z) → ¬kept → markTest zones point = (.blocked, 0))

/-- R56, R58, R59: MARK_RETIRE removes the record and hands the retirement, MARK_READ answers with the whole record,
MARK_LIST with a listed filter enters service. That detail1 of a refused MARK_LIST is 0 is the model's choice
(entry 10). Each request is one that its owner takes (RequestStagePassesOrRefuses). -/
def Obligations.MarkRetireReadAndList : Prop :=
    ∀ (p : Port) (tag : Byte) (n : Nat) (s : State), s.hands.changes = [] →
    let retire : Instr := .markRetire p tag n
    let read : Instr := .markRead p tag n
    let list : Instr := .markList p tag n
    (s.takes p retire = true →
      (∀ m, n ≤ 63 → markAt s.marks n = some m →
        exec retire s = .next (State.served { s with
            marks := s.marks.filter (fun x => x.number != n)
            hands := { s.hands with markReports := s.hands.markReports ++ [.retired n] } }
          p retire [closing tag .ok n 0] [.mark .retired (some m.state) m])) ∧
      (63 < n → exec retire s = .next (s.served p retire [closing tag .outOfRange n 5] [])) ∧
      (n ≤ 63 → markAt s.marks n = none → exec retire s = .next (s.served p retire [closing tag .noRecord n 0] []))) ∧
    (s.takes p read = true →
      (∀ m, n ≤ 63 → markAt s.marks n = some m →
        exec read s = .next (s.served p read [closingItem tag (.mark m) .ok n 0] [])) ∧
      (63 < n → exec read s = .next (s.served p read [closing tag .outOfRange n 5] [])) ∧
      (n ≤ 63 → markAt s.marks n = none → exec read s = .next (s.served p read [closing tag .noRecord n 0] []))) ∧
    (s.takes p list = true →
      (∀ f, (n = 0 ∧ f = .all) ∨ (n = 1 ∧ f = .state .clear) ∨ (n = 2 ∧ f = .state .blocked) →
        let u := s.served p list [] []
        exec list s = .next (u.setPort p { u.port p with service := some ⟨.marks f none, tag, 0⟩ })) ∧
      (2 < n → exec list s = .next (s.served p list [closing tag .outOfRange 0 7] [])))

/-- R52: the oldest report of changes in force makes the mark test on every mark again, in ascending number; each change
of state sends its notice, and the changes are handed to the move queue as one report. -/
def Obligations.ChangesReevaluateEveryMark : Prop :=
    ∀ (s : State) (r : List Nat) (rest : List (List Nat)), s.hands.changes = r :: rest →
    let judged := fun (m : Mark) => { m with state := (markTest s.zones m.point).1, blocker := (markTest s.zones m.point).2 }
    let moved := s.marks.filter (fun m => decide ((judged m).state ≠ m.state))
    exec .changeInForceReport s = .next (State.told { s with
        marks := s.marks.map judged
        hands := { s.hands with
          changes := rest
          markReports := s.hands.markReports
            ++ (if moved = [] then [] else [.changed (moved.map (fun m => (m.number, (judged m).state)))]) } }
      (moved.map (fun m =>
        .mark (if (judged m).state = .blocked then .blocked else .cleared) (some m.state) (judged m))))

/-! ## Chapter 1: settings, rigging and unrigging -/

/-- R7 to R11, R174, Tables 1-2 and 1-3. A rig setting is refused while rigged. While OFFLINE it is stored exactly when
its value is in its table's range or is one of its codes, and GET reads it back; one that restarts nothing leaves every other
setting as it reads. A refused ANCHOR carries the index in detail2 (R7): the model's deduction where R2 names the axis (entry 16).
R13, R136, R141: LANE_MAP, LANE_FORMAT, LANE_GAIN and LANE_PATTERN return the lane to UNCHECKED. The winch that a GOOD
lane served is re-formed from its cells that are still fresh, and the check of a CHECKING lane ends with OK and 0xFF,
before the CLOSE of the SET. What stands beside a winch of −1 is ignored: the model's deduction (entry 17).
R13, R131: FILTER_MODE and FILTER_COEFF empty every lane, and each winch that a GOOD lane serves is at NONE with its
tension kept. That the lanes are all emptied before a winch is re-formed is the model's deduction (entry 13).
A live setting is clamped into its range and stored when its ordering holds, and every other setting is left as it reads; the rig computer may not set one while
rigged. The telemetry interval is that of the port that asks. GET answers with the value; an identifier or index outside
the tables is refused. The details of GET's CLOSE with OK are the model's choice (entry 10). Each request is one that
its owner takes (RequestStagePassesOrRefuses). -/
def Obligations.SetStoresAndGetReads : Prop :=
  (∀ (p : Port) (tag : Byte) (id index : Nat) (v : Vec3) (s : State), settingClass id index = some .rig →
    let c : Instr := .set p tag id index v
    s.takes p c = true →
    let refused := fun (status : Status) => exec c s = .next (s.served p c [closing tag status id index] [])
    (s.rigged = true → refused .wrongMode) ∧
    (s.rigged = false →
      (∀ kept, plainRule id v = some (false, kept) → refused .outOfRange) ∧
      (∀ kept, plainRule id v = some (true, kept) → ∃ st : Settings,
        exec c s = .next (State.served { s with settings := st } p c [closing tag .ok id index] []) ∧
        (∀ q, settingValue { s with settings := st } q id index = kept) ∧
        ∀ id' index' q, settingClass id' index' ≠ none → (id', index') ≠ (id, index) →
          settingValue { s with settings := st } q id' index' = settingValue s q id' index') ∧
      (id = 0x10 ∨ id = 0x11 ∨ id = 0x12 ∨ id = 0x14 → (∀ l st', ¬laneSet s.settings id l v st') → refused .outOfRange) ∧
      (id = 0x15 ∨ id = 0x16 → (∀ st', ¬filterSet s.settings id index v st') → refused .outOfRange))) ∧
  (∀ (p : Port) (tag : Byte) (id : Nat) (l : Lane) (v : Vec3) (s : State) (st' : Settings), s.rigged = false →
    laneSet s.settings id l v st' →
    let c : Instr := .set p tag id l.val v
    s.takes p c = true →
    let r := s.tension.lanes.get l
    let lanes' := s.tension.lanes.set l { r with
      state := .unchecked, history := [], samples := 0, valid := false, watch := false, check := none }
    let after := fun (t : Quad WinchRec) => State.told
      { s with settings := st', tension := { s.tension with lanes := lanes', winches := t } }
      [.lane .setting l .unchecked r.state (st'.laneMap.get l) 0]
    let ends := fun (t : State) => exec c s = .next (t.served p c [closing tag .ok id l.val] [])
    (r.state ≠ .checking → r.state ≠ .good ∨ s.settings.laneMap.get l = none → ends (after s.tension.winches)) ∧
    (∀ w cell, r.state = .good → s.settings.laneMap.get l = some ⟨w, cell⟩ →
      let old := s.tension.winches.get w
      let formed := fun (n : Int) (flag : SourceFlag) =>
        ends (after (s.tension.winches.set w { old with tension := n, flag := flag }))
      let fresh := fun x : Cell => ∃ k, st'.laneMap.get k = some ⟨w, x⟩ ∧ (lanes'.get k).state = .good ∧
        (lanes'.get k).valid = true
      (fresh .a → fresh .b → |old.cellA - old.cellB| ≤ st'.disagreeTol → formed ((old.cellA + old.cellB) / 2) .pair) ∧
      (fresh .a → fresh .b → st'.disagreeTol < |old.cellA - old.cellB| → formed (max old.cellA old.cellB) .disagree) ∧
      (fresh .a → ¬fresh .b → formed old.cellA .single) ∧ (¬fresh .a → fresh .b → formed old.cellB .single) ∧
      (¬fresh .a → ¬fresh .b → formed old.tension .none)) ∧
    (∀ q held, r.state = .checking → (s.port q).service = some held → held.work = .laneCheck l →
      (∀ o, o ≠ q → (s.port o).checks l = false) →
      let t := after s.tension.winches
      ends (t.setPort q (PortRec.answered { t.port q with service := none } [closing held.tag .ok l.val 0xFF]))) ∧
    ∀ q, settingValue { s with settings := st' } q id l.val =
      if id = 0x10 then (if v.x = -1 then ⟨-1, 0, 0⟩ else ⟨v.x, v.y, 0⟩)
      else if id = 0x14 then ⟨v.x, v.y, 0⟩ else ⟨v.x, 0, 0⟩) ∧
  (∀ (p : Port) (tag : Byte) (id index : Nat) (v : Vec3) (s : State) (st' : Settings), s.rigged = false →
    settingClass id index = some .rig → filterSet s.settings id index v st' →
    let c : Instr := .set p tag id index v
    s.takes p c = true →
    let unfed := fun (w : Winch) (r : WinchRec) =>
      if ∃ l, (s.tension.lanes.get l).state = .good ∧ (s.settings.laneMap.get l).map CellName.winch = some w
      then { r with flag := .none } else r
    exec c s = .next (State.served { s with
        settings := st'
        tension := { s.tension with
          lanes := s.tension.lanes.map (fun r => { r with history := [], samples := 0, valid := false })
          winches := ⟨unfed 0 s.tension.winches.w0, unfed 1 s.tension.winches.w1, unfed 2 s.tension.winches.w2,
            unfed 3 s.tension.winches.w3⟩ } }
      p c [closing tag .ok id index] []) ∧
    (index < s.settings.filterCoeff.length → ∀ q, settingValue { s with settings := st' } q id index = ⟨v.x, 0, 0⟩)) ∧
  (∀ (p : Port) (tag : Byte) (id index : Nat) (v : Vec3) (s : State), settingClass id index = some .live →
    let c : Instr := .set p tag id index v
    s.takes p c = true →
    let w : Winch := Fin.ofNat 4 index
    let n := max (liveRange id).1 (min v.x (liveRange id).2)
    let held := fun (other : Nat) (old : Int) => if id = other then n else old
    let ordered := ((id = 0x41 ∨ id = 0x42 ∨ id = 0x43) →
        held 0x41 (s.settings.tensionSlack.get w) < held 0x42 (s.settings.tensionWarn.get w) ∧
        held 0x42 (s.settings.tensionWarn.get w) < held 0x43 (s.settings.tensionMax.get w)) ∧
      ((id = 0x45 ∨ id = 0x46) → held 0x45 s.settings.windFull < held 0x46 s.settings.windStop)
    (s.rigged = true → p = .rig → exec c s = .next (s.served p c [closing tag .notPermitted id index] [])) ∧
    (s.rigged = false ∨ p = .safety → ordered → ∃ st : Settings,
      exec c s = .next (State.served { s with settings := st } p c
        [closing tag (if n = v.x then .ok else .clamped) id index] []) ∧
      (∀ q, settingValue { s with settings := st } q id index = ⟨n, 0, 0⟩) ∧
      ∀ id' index' q, settingClass id' index' ≠ none → (id', index') ≠ (id, index) →
        settingValue { s with settings := st } q id' index' = settingValue s q id' index') ∧
    (s.rigged = false ∨ p = .safety → ¬ordered → exec c s = .next (s.served p c [closing tag .conflict id index] []))) ∧
  (liveRange 0x40 = (10, 100) ∧ liveRange 0x41 = (0, 200000) ∧ liveRange 0x42 = (0, 200000) ∧
    liveRange 0x43 = (0, 200000) ∧ liveRange 0x44 = (100, 50000) ∧ liveRange 0x45 = (0, 5000) ∧
    liveRange 0x46 = (0, 5000) ∧ liveRange 0x47 = (100, 2000)) ∧
  (∀ (p : Port) (tag : Byte) (v : Vec3) (s : State),
    let c : Instr := .set p tag 0x48 0 v
    s.takes p c = true →
    let n : Nat := if v.x ≤ 0 then 0 else (max 5 (min v.x 250)).toNat
    let u := s.served p c [closing tag (if (n : Int) = v.x then .ok else .clamped) 0x48 0] []
    exec c s = .next (u.setPort p { u.port p with
      interval := n, countdown := n, due := if n = 0 then false else (s.port p).due })) ∧
  (∀ (p : Port) (tag : Byte) (id index : Nat) (v : Vec3) (s : State),
    let get : Instr := .get p tag id index
    let set : Instr := .set p tag id index v
    (s.takes p get = true → settingClass id index ≠ none →
      exec get s = .next (s.served p get [closingItem tag (.setting id index (settingValue s p id index)) .ok 0 0] [])) ∧
    (s.takes p get = true → settingClass id index = none →
      exec get s = .next (s.served p get [closing tag .outOfRange id index] [])) ∧
    (s.takes p set = true → settingClass id index = none →
      exec set s = .next (s.served p set [closing tag .outOfRange id index] [])))

/-- R14, R17, R89, R111, R145, R153, R165: an accepted RIG_COMMIT in OFFLINE puts every block at its commit state at the
initial pose, with HOLD as the mode. What was handed before it and is not yet taken is dropped: the
model's choice (entry 12), as are the CLOSE details that no rule gives (entry 10).
It is refused while rigged, for a pose out of the frame ranges, and for the first check of Table 1-4 that fails. Each
request is one that its owner takes (RequestStagePassesOrRefuses). -/
def Obligations.RigCommitRigsAtPose : Prop :=
    ∀ (p : Port) (tag : Byte) (pose : Vec3) (s : State),
    let c : Instr := .rigCommit p tag pose
    s.takes p c = true →
    let um : Vec3 := ⟨1000 * pose.x, 1000 * pose.y, 1000 * pose.z⟩
    let l := lineLengths s.settings.anchor um
    let drum := fun (d : Drum) (length : Int) =>
      ({ d with countRef := some d.count, lengthRef := some length, exceed := 0, illegal := 0 } : Drum)
    let k : Carrier := ⟨.hold, [], none, false, false, ⟨0, 0, 0⟩, 50, false, true, s.carrier.begun⟩
    (s.rigged = false → positionFault pose = none → commitFault s um = none →
      exec c s = .next (State.served { s with
          path := some ⟨um, ⟨0, 0, 0⟩, ⟨um, um⟩, .atRest, l, 0, s.settings.speedCap * s.settings.capTrim / 100, .setting⟩
          refBox := some ⟨um, um⟩
          drums := ⟨drum s.drums.w0 l.w0, drum s.drums.w1 l.w1, drum s.drums.w2 l.w2, drum s.drums.w3 l.w3⟩
          tension := { s.tension with
            winches := s.tension.winches.map (fun w => { w with overload := 0, slack := 0 })
            cap := tensionCapOf s.settings s.tension.winches }
          wind := { s.wind with cap := windCapOf s.settings s.wind.speed }
          carrier := k
          bus := { s.bus with
            failures := 0, lastClass := .short, countdown := 0, keepaliveDue := false
            drives := s.bus.drives.map (fun d => { d with watchAge := 0, timeoutDue := false }) }
          hands := { s.hands with
            stepZone := none, stepQueue := none, stepCarrier := none, stepDrum := none, writes := [], raises := [],
            freeze := false, faults := [], windChanges := [] } }
        p c [closing tag .ok 0 0] [modeNews .commit k .offline])) ∧
    (s.rigged = true → exec c s = .next (s.served p c [closing tag .wrongMode 0 0] [])) ∧
    (s.rigged = false → ∀ axis, positionFault pose = some axis →
      exec c s = .next (s.served p c [closing tag .outOfRange 0 axis] [])) ∧
    (s.rigged = false → positionFault pose = none → ∀ check index, commitFault s um = some (check, index) →
      exec c s =
        .next (s.served p c [closing tag (if check = 13 then .estop else .conflict) check index] []))

/-- R15, R16, Table 1-4: a commit passes exactly when each of the thirteen checks passes, and a failing one is reported
by its number with every check before it passed. Its index is that of the first item that fails: 4·i + j of the first pair
of anchors, the first winch, the lane of the first failing pass of LANES behind 0x10 or 0x20, the lowest zone number, or 0. -/
def Obligations.CommitChecksAreTheTable : Prop :=
    ∀ (s : State) (um : Vec3),
    let st := s.settings
    let distance := fun (w : Winch) => (um.x - 1000 * (st.anchor.get w).x) ^ 2 + (um.y - 1000 * (st.anchor.get w).y) ^ 2
      + (um.z - 1000 * (st.anchor.get w).z) ^ 2
    let apart := fun a b : Winch => 1000000 ≤ ((st.anchor.get b).x - (st.anchor.get a).x) ^ 2
      + ((st.anchor.get b).y - (st.anchor.get a).y) ^ 2 + ((st.anchor.get b).z - (st.anchor.get a).z) ^ 2
    let winchPasses : Nat → Winch → Prop := fun k w =>
      match k with
      | 3 => st.speedCap ≤ st.lineSpeed.get w
      | 4 => st.lenMin.get w < st.lenMax.get w ∧ st.drumScale.get w ≠ 0
      | 8 => st.tensionSlack.get w < st.tensionWarn.get w ∧ st.tensionWarn.get w < st.tensionMax.get w
      | 9 => (1000 * st.lenMin.get w) ^ 2 ≤ distance w ∧ distance w ≤ (1000 * st.lenMax.get w) ^ 2
      | 12 => (∃ a, (s.bus.drives.get w).statusAge = some a ∧ a < 10) ∧
          (s.bus.drives.get w).state ≠ some .running ∧ (s.bus.drives.get w).state ≠ some .fault
      | _ => True
    let mapped := fun w : Winch => ∃ l c, st.laneMap.get l = some ⟨w, c⟩
    let shares := fun l : Lane => st.laneMap.get l ≠ none ∧ ∃ k, k < l ∧ st.laneMap.get k = st.laneMap.get l
    let good := fun l : Lane => st.laneMap.get l ≠ none → (s.tension.lanes.get l).state = .good
    let zonePasses : Nat → Zone → Prop := fun k z =>
      match k with
      | 10 => z.kind = .keepOut → z.state = .active → z.expanded.holds um = false
      | 11 => z.kind = .keepIn → z.state = .active →
          ∀ w, lineRangeAt (st.anchor.get w) (st.lenMin.get w) (st.lenMax.get w) z.shrunk = true
      | _ => True
    let passes : Nat → Prop := fun k =>
      match k with
      | 1 => ∀ a b : Winch, a < b → apart a b
      | 2 => st.accelRate ≤ st.stopRate
      | 5 => (∀ w, mapped w) ∧ (∀ l, ¬shares l) ∧ ∀ l, good l
      | 6 => st.filterMode = .builtIn ∨ (2048 ≤ st.filterCoeff.sum ∧ st.filterCoeff.sum ≤ 8192)
      | 7 => st.acceptMask &&& 3 = 0
      | 13 => s.estop = false
      | k => (∀ w, winchPasses k w) ∧ ∀ z ∈ s.zones, zonePasses k z
    let firstWinch := fun (fine : Winch → Prop) (index : Nat) => ∃ w, ¬fine w ∧ (∀ v, v < w → fine v) ∧ index = w.val
    let firstLane := fun (fine : Lane → Prop) (base index : Nat) =>
      ∃ l, ¬fine l ∧ (∀ k, k < l → fine k) ∧ index = base + l.val
    let names : Nat → Nat → Prop := fun k index =>
      match k with
      | 1 => ∃ a b : Winch, a < b ∧ ¬apart a b ∧
          (∀ c d : Winch, c < d → c < a ∨ (c = a ∧ d < b) → apart c d) ∧ index = 4 * a.val + b.val
      | 5 => firstWinch mapped index ∨ ((∀ w, mapped w) ∧ firstLane (fun l => ¬shares l) 0x10 index) ∨
          ((∀ w, mapped w) ∧ (∀ l, ¬shares l) ∧ firstLane good 0x20 index)
      | 10 | 11 => s.zones.Pairwise (fun a b => a.number < b.number) →
          ∃ z ∈ s.zones, ¬zonePasses k z ∧ (∀ y ∈ s.zones, y.number < z.number → zonePasses k y) ∧ index = z.number
      | 3 | 4 | 8 | 9 | 12 => firstWinch (winchPasses k) index
      | _ => index = 0
    (commitFault s um = none ↔ ∀ k, passes k) ∧
    ∀ check index, commitFault s um = some (check, index) →
      1 ≤ check ∧ check ≤ 13 ∧ ¬passes check ∧ (∀ k, k < check → passes k) ∧ names check index

/-- R18, R19, R48, R89, R145: UNRIG from the safety port, PARKED, in HALTED/STOPPED or in HOLD at rest, makes every block
OFFLINE. The first part gives the whole next state where no zone waits or lapses; the second the zone table, the mark
table and the reports whatever the zones. The other modes and the rig port are refused. UNRIG is given with no step result
standing at carrier control that it must follow, and an accepted one with no retirement and no change in force standing; what
stands is taken first (EventsTakeStandingResultsFirst). HOLD reads the flag of the
last step result: the model's choice (entry 15), as are the CLOSE details (entry 10). That all of it is one event, that the
STOP carries the first cause that stood, and that the steer age and the at-rest flag stay as they were, is the model's
deduction (entry 19). Each request is one that its owner takes (RequestStagePassesOrRefuses). -/
def Obligations.UnrigReturnsOffline : Prop :=
    ∀ (tag : Byte) (s : State), s.carrierSettled →
    let m := s.carrier.mode
    let c : Instr := .unrig .safety tag
    let k := { s.carrier with
      mode := .offline, causes := [], first := none, poseLost := false, stickOwned := false, windMirror := false }
    let news := (s.zones.filter (fun z => z.waits || z.lapsesAtUnrig)).map (fun z =>
      if z.waits then Notice.zone .activated { z with state := .active } else .zone .lapsed z)
    let zones := (s.zones.filter (fun z => !z.lapsesAtUnrig)).map (fun z => if z.waits then { z with state := .active } else z)
    let bare : State := { s with
      queue := { s.queue with entries := [], travelFlag := false }
      carrier := k, path := none, refBox := none
      drums := s.drums.map (fun d => { d with countRef := none, lengthRef := none, exceed := 0 })
      wind := { s.wind with hold := false }
      bus := { s.bus with slots := .all none, stopSlot := some (s.carrier.first.map Report.cause) } }
    let told := [Notice.queue .unrig s.queue.entries.length, modeNews .unrig k m]
      ++ (if s.wind.hold then
        [.wind .unrig false s.wind.speed s.wind.cap s.settings.windFull s.settings.windStop] else [])
    (s.takes .safety c = true → s.marksSettled = true → m = .parked ∨ m = .halted .stopped ∨ (m = .hold ∧ s.carrier.lastAtRest = true) →
      (news = [] → exec c s = .next (bare.served .safety c [closing tag .ok 0 0] told)) ∧
      (news ≠ [] → exec c s =
        .next (State.served { bare with
            zones := zones
            marks := s.marks.map (remark zones)
            hands := { s.hands with
              markReports := s.hands.markReports
                ++ (if s.marks.filterMap (remarkChange zones) = [] then []
                  else [.changed (s.marks.filterMap (remarkChange zones))]) } }
          .safety c [closing tag .ok 0 0] (told ++ news ++ s.marks.filterMap (remarkNotice zones))))) ∧
    (s.takes .rig (.unrig .rig tag) = true →
      exec (.unrig .rig tag) s = .next (s.served .rig (.unrig .rig tag) [closing tag .notPermitted 0 0] [])) ∧
    (s.takes .safety c = true → m = .offline → exec c s = .next (s.served .safety c [closing tag .wrongMode 0 0] [])) ∧
    (s.takes .safety c = true →
      m = .steer ∨ m = .travel ∨ m = .halted .stopping ∨ (m = .hold ∧ s.carrier.lastAtRest = false) →
      exec c s = .next (s.served .safety c [closing tag .notAtRest 0 0] []))

/-! ## Chapter 7: tension -/

/-- R139, R140, R133: a LANE_CHECK accepted in OFFLINE empties the lane and enters service. The winch that a GOOD lane served
is re-formed from its cells that are still fresh (R135, R136). Each matching word counts and
arms the watch, the 64th passes the check, and a word that does not match or a silence fails it. The CLOSE goes to the
port that holds the check, which leaves service. The refusals of R139; detail2 of two of them is the model's choice
(entry 10). Each request is one that its owner takes (RequestStagePassesOrRefuses). -/
def Obligations.LaneCheckRunsAndEnds : Prop :=
  (∀ (p : Port) (tag : Byte) (l : Lane) (s : State),
    let c : Instr := .laneCheck p tag l.val
    s.takes p c = true →
    let r := s.tension.lanes.get l
    let refusal := fun (code : Nat) => exec c s = .next (s.served p c [closing tag .conflict l.val code] [])
    let r' := { r with
      state := .checking, history := [], samples := 0, valid := false, watch := true, check := some ⟨none, 0⟩ }
    let lanes' := s.tension.lanes.set l r'
    let enters := fun (winches' : Quad WinchRec) =>
      let u := State.served { s with tension := { s.tension with lanes := lanes', winches := winches' } } p c []
        [.lane .checkStarted l .checking r.state (s.settings.laneMap.get l) 0]
      exec c s = .next (u.setPort p { u.port p with service := some ⟨.laneCheck l, tag, 0⟩ })
    (s.rigged = false → s.settings.laneMap.get l ≠ none → r.state ≠ .checking → r.state ≠ .good →
      enters s.tension.winches) ∧
    (∀ w cell, s.rigged = false → s.settings.laneMap.get l = some ⟨w, cell⟩ → r.state = .good →
      let old := s.tension.winches.get w
      let formed := fun (n : Int) (flag : SourceFlag) =>
        enters (s.tension.winches.set w { old with tension := n, flag := flag })
      let fresh := fun x : Cell => ∃ k, s.settings.laneMap.get k = some ⟨w, x⟩ ∧ (lanes'.get k).state = .good ∧
        (lanes'.get k).valid = true
      (fresh .a → fresh .b → |old.cellA - old.cellB| ≤ s.settings.disagreeTol →
        formed ((old.cellA + old.cellB) / 2) .pair) ∧
      (fresh .a → fresh .b → s.settings.disagreeTol < |old.cellA - old.cellB| →
        formed (max old.cellA old.cellB) .disagree) ∧
      (fresh .a → ¬fresh .b → formed old.cellA .single) ∧ (¬fresh .a → fresh .b → formed old.cellB .single) ∧
      (¬fresh .a → ¬fresh .b → formed old.tension .none)) ∧
    (s.rigged = true → exec c s = .next (s.served p c [closing tag .wrongMode l.val 0] [])) ∧
    (s.rigged = false → s.settings.laneMap.get l = none → refusal 1) ∧
    (s.rigged = false → s.settings.laneMap.get l ≠ none → r.state = .checking → refusal 2)) ∧
  (∀ (p : Port) (tag : Byte) (n : Nat) (s : State), s.takes p (.laneCheck p tag n) = true → 8 ≤ n →
    exec (.laneCheck p tag n) s = .next (s.served p (.laneCheck p tag n) [closing tag .outOfRange n 0] [])) ∧
  (∀ (p : Port) (v : Service) (l : Lane) (word : BitVec 16) (check : Check) (s : State),
    let r := s.tension.lanes.get l
    let codes := s.settings.lanePattern.get l
    let matching := word = codes.1 ∧ check.last ≠ some codes.1 ∨
      word = codes.2 ∧ (check.last = none ∨ check.last = some codes.1)
    let ended := fun (st : LaneState) (watch : Bool) (reason : LaneReason) (status : Status) (n : Nat) =>
      let t := State.told { s with tension := { s.tension with
          lanes := s.tension.lanes.set l { r with state := st, watch := watch, check := none } } }
        [.lane reason l st .checking (s.settings.laneMap.get l) n]
      Host.Outcome.next (t.setPort p (PortRec.answered { t.port p with service := none }
        [closing v.tag status l.val n]))
    r.state = .checking → r.check = some check → (s.port p).service = some v → v.work = .laneCheck l →
    (∀ q, q ≠ p → (s.port q).checks l = false) →
    (matching → check.matched + 1 < 64 →
      exec (.sampleArrival l word) s = .next { s with tension := { s.tension with
        lanes := s.tension.lanes.set l { r with watch := true, check := some ⟨some word, check.matched + 1⟩ } } }) ∧
    (matching → check.matched = 63 →
      exec (.sampleArrival l word) s = ended .good true .checkPassed .ok 64) ∧
    (¬matching → exec (.sampleArrival l word) s = ended .bad false .checkFailed .conflict check.matched) ∧
    (r.watch = true → exec (.silenceExpiry l) s = ended .bad false .checkFailed .conflict (0x80 + check.matched)))

/-- R129 to R132, R134 to R138: a word is converted, gained and filtered; an output of a GOOD lane re-forms its winch, and
while rigged counts towards OVERLOAD and SLACK and forms the tension cap. A STALE lane is restored by a word. A silence
makes a GOOD lane STALE, and its winch is re-formed from its cells that are still fresh, with the tension cap while rigged;
with no cell left fresh the winch is at NONE and, while rigged, SENSE_LOST is reported.
An expiry on an idle watch changes nothing: the model's choice (entry 14). -/
def Obligations.SamplesBecomeWinchTension : Prop :=
  (∀ (l : Lane) (word : BitVec 16) (s : State),
    let st := s.settings
    let r := s.tension.lanes.get l
    let x : Int := if st.laneFormat.get l = .offset then (word.toNat : Int) - 32768 else word.toInt
    let y := max (-32768) (min ((x * (16 + st.laneGain.get l)).tdiv 16) 32767)
    let pushed : LaneRec := { r with
      history := (y :: r.history).take 12, samples := if r.samples = 15 then 12 else r.samples + 1
      watch := r.watch || r.state == .good }
    let coeffs := if st.filterMode = .builtIn then List.replicate 12 341 else st.filterCoeff
    let out := max (-32768) (min ((List.zipWith (· * ·) coeffs pushed.history).sum / 4096) 32767)
    let v := out * st.laneScale.get l / 256
    let full : LaneRec := { pushed with latest := v, valid := true }
    (r.state ≠ .checking → r.state ≠ .stale → pushed.samples ≠ 12 →
      exec (.sampleArrival l word) s =
        .next { s with tension := { s.tension with lanes := s.tension.lanes.set l pushed } }) ∧
    (r.state = .unchecked ∨ r.state = .bad ∨ (r.state = .good ∧ st.laneMap.get l = none) → pushed.samples = 12 →
      exec (.sampleArrival l word) s =
        .next { s with tension := { s.tension with lanes := s.tension.lanes.set l full } }) ∧
    (∀ w cell, r.state = .good → pushed.samples = 12 → st.laneMap.get l = some ⟨w, cell⟩ →
      let old := s.tension.winches.get w
      let other : Cell := if cell = .a then .b else .a
      let theirs := if cell = .a then old.cellB else old.cellA
      let formed : Int × SourceFlag :=
        if cellFresh st s.tension w other then
          (if |v - theirs| ≤ st.disagreeTol then ((v + theirs) / 2, .pair) else (max v theirs, .disagree))
        else (v, .single)
      let winch : WinchRec := { old with
        cellA := if cell = .a then v else old.cellA, cellB := if cell = .b then v else old.cellB
        tension := formed.1, flag := formed.2 }
      let high := if st.tensionMax.get w ≤ formed.1 then min (old.overload + 1) 3 else 0
      let low := if formed.1 ≤ st.tensionSlack.get w then min (old.slack + 1) 3 else 0
      let counted := s.tension.winches.set w { winch with overload := high, slack := low }
      (s.rigged = false → exec (.sampleArrival l word) s = .next { s with tension := { s.tension with
        lanes := s.tension.lanes.set l full, winches := s.tension.winches.set w winch } }) ∧
      (s.rigged = true → exec (.sampleArrival l word) s = .next { s with
        tension := ⟨s.tension.lanes.set l full, counted, tensionCapOf st counted⟩
        hands := { s.hands with
          faults := s.hands.faults ++ (if high = 3 then [⟨.overload, some w⟩] else [])
            ++ (if low = 3 then [⟨.slack, some w⟩] else []) } })) ∧
    (r.state = .stale → exec (.sampleArrival l word) s = .next (State.told { s with tension := { s.tension with
        lanes := s.tension.lanes.set l { r with
          state := .good, history := [y], samples := 1, valid := false, watch := true } } }
      [.lane .restored l .good .stale (st.laneMap.get l) 0]))) ∧
  (∀ (l : Lane) (s : State),
    let r := s.tension.lanes.get l
    let lanes' := s.tension.lanes.set l { r with state := .stale, watch := false }
    let t := { s with tension := { s.tension with lanes := lanes' } }
    let news := fun (m : Option CellName) => [Notice.lane .stale l .stale .good m 0]
    (r.watch = false → exec (.silenceExpiry l) s = .next s) ∧
    (r.watch = true → r.state = .good → s.settings.laneMap.get l = none →
      exec (.silenceExpiry l) s = .next (t.told (news none))) ∧
    ∀ w cell, r.watch = true → r.state = .good → s.settings.laneMap.get l = some ⟨w, cell⟩ →
      let old := s.tension.winches.get w
      let formed := fun (n : Int) (flag : SourceFlag) (lost : List Report) =>
        let winches' := s.tension.winches.set w { old with tension := n, flag := flag }
        (s.rigged = false → exec (.silenceExpiry l) s =
          .next (State.told { s with tension := ⟨lanes', winches', s.tension.cap⟩ } (news (some ⟨w, cell⟩)))) ∧
        (s.rigged = true → exec (.silenceExpiry l) s = .next (State.told { s with
            tension := ⟨lanes', winches', tensionCapOf s.settings winches'⟩
            hands := { s.hands with faults := s.hands.faults ++ lost } } (news (some ⟨w, cell⟩))))
      let fresh := fun x : Cell => ∃ k, s.settings.laneMap.get k = some ⟨w, x⟩ ∧ (lanes'.get k).state = .good ∧
        (lanes'.get k).valid = true
      (fresh .a → fresh .b → |old.cellA - old.cellB| ≤ s.settings.disagreeTol →
        formed ((old.cellA + old.cellB) / 2) .pair []) ∧
      (fresh .a → fresh .b → s.settings.disagreeTol < |old.cellA - old.cellB| →
        formed (max old.cellA old.cellB) .disagree []) ∧
      (fresh .a → ¬fresh .b → formed old.cellA .single []) ∧ (¬fresh .a → fresh .b → formed old.cellB .single []) ∧
      (¬fresh .a → ¬fresh .b → formed old.tension .none [⟨.senseLost, some w⟩])) ∧
  (∀ (st : Settings) (t : Quad WinchRec),
    let floor := min st.derateFloor st.speedCap
    let cap := fun (w : Winch) =>
      let n := (t.get w).tension
      let warn := st.tensionWarn.get w
      let top := st.tensionMax.get w
      if n ≤ warn then st.speedCap
      else if n < top then max (st.speedCap * (top - n) / (top - warn)) floor
      else floor
    0 ≤ st.speedCap → (∀ w, st.tensionWarn.get w < st.tensionMax.get w) →
    tensionCapOf st t = min (min (cap 0) (cap 1)) (min (cap 2) (cap 3)))

/-! ## Chapter 8: drum counters and wind -/

/-- R146: a transition of an encoder pair counts up along the forward cycle and down along the other, the count wrapping
at 32 bits; an illegal one is counted apart. One that leaves both levels as they were has no effect: the model's choice (entry 31).
R147: the fourth and every later illegal transition in one window is reported while rigged, and a second tick starts a
new window. -/
def Obligations.EncoderCountsQuadrature : Prop :=
  (∀ (w : Winch) (s : State) (levels : Levels),
    let d := s.drums.get w
    let after := fun (d' : Drum) => exec (.encoderTransition w levels) s = .next { s with drums := s.drums.set w d' }
    let forward := [((false, false), (true, false)), ((true, false), (true, true)), ((true, true), (false, true)),
      ((false, true), (false, false))]
    let old := (d.levels.a, d.levels.b)
    let new := (levels.a, levels.b)
    let n := min (d.illegal + 1) 255
    ((old, new) ∈ forward → after { d with levels := levels, count := d.count + 1 }) ∧
    ((new, old) ∈ forward → after { d with levels := levels, count := d.count - 1 }) ∧
    (levels.a ≠ d.levels.a → levels.b ≠ d.levels.b →
      (s.rigged = false ∨ n < 4 → after { d with levels := levels, illegal := n }) ∧
      (s.rigged = true → 4 ≤ n → exec (.encoderTransition w levels) s = .next { s with
        drums := s.drums.set w { d with levels := levels, illegal := n }
        hands := { s.hands with faults := s.hands.faults ++ [⟨.encoder, some w⟩] } })) ∧
    (levels = d.levels → exec (.encoderTransition w levels) s = .next s)) ∧
  (∀ s : State, exec .drumSecondTick s = .next { s with drums := s.drums.map (fun d => { d with illegal := 0 }) })

/-- R148, R149: at a step result, while rigged with the pose held, each winch's measured length is compared with the
commanded length; three in a row beyond TRACK_TOL report TRACKING, in winch order. With the pose lost the counts are 0;
that while OFFLINE the result has no effect is the model's choice (entry 12).
R152 to R154: a pulse counts up to 65,535; a second tick closes the gate, forms the wind cap and, while rigged, sets the
hold at WIND_STOP or above and clears it at WIND_FULL or below; a change sends its notice and is handed over. -/
def Obligations.TrackingAndWindAreJudged : Prop :=
  (∀ (s : State) (r : StepResult), s.hands.stepDrum = some r →
    let h := { s.hands with stepDrum := none }
    (s.rigged = false → exec .drumStepResult s = .next { s with hands := h }) ∧
    (s.rigged = true → s.carrier.poseLost = true →
      exec .drumStepResult s = .next { s with hands := h, drums := s.drums.map (fun d => { d with exceed := 0 }) }) ∧
    (∀ p, s.rigged = true → s.carrier.poseLost = false → s.path = some p →
      let judged := fun (w : Winch) (d : Drum) =>
        match d.countRef, d.lengthRef with
        | some n, some l =>
            let measured := l + ((d.count - n).toInt * s.settings.drumScale.get w).tdiv 65536
            if 1000 * s.settings.trackTol < |measured - p.lengths.get w| then { d with exceed := min (d.exceed + 1) 3 }
            else { d with exceed := 0 }
        | _, _ => d
      let drums : Quad Drum := ⟨judged 0 s.drums.w0, judged 1 s.drums.w1, judged 2 s.drums.w2, judged 3 s.drums.w3⟩
      exec .drumStepResult s = .next { s with
        drums := drums
        hands := { h with
          faults := h.faults ++ (winches.filter (fun w => decide ((drums.get w).exceed = 3))).map
            (fun w => ⟨.tracking, some w⟩) } })) ∧
  (∀ s : State, exec .anemometerPulse s = .next { s with wind := { s.wind with pulses := min (s.wind.pulses + 1) 65535 } }) ∧
  (∀ s : State,
    let st := s.settings
    let speed : Int := s.wind.pulses * st.windCmPerPulse
    let floor := min st.derateFloor st.speedCap
    let cap :=
      if speed ≤ st.windFull then st.speedCap
      else if speed < st.windStop then max (st.speedCap * (st.windStop - speed) / (st.windStop - st.windFull)) floor
      else floor
    let after := fun (hold : Bool) => ({ pulses := 0, speed := speed, cap := cap, hold := hold } : Wind)
    let news := fun (reason : WindReason) (hold : Bool) => [Notice.wind reason hold speed cap st.windFull st.windStop]
    let changed := fun (hold : Bool) => ({ s with
      wind := after hold, hands := { s.hands with windChanges := s.hands.windChanges ++ [hold] } } : State)
    (s.rigged = false ∨ (s.wind.hold = false ∧ speed < st.windStop) ∨ (s.wind.hold = true ∧ st.windFull < speed) →
      exec .windSecondTick s = .next { s with wind := after s.wind.hold }) ∧
    (s.rigged = true → s.wind.hold = false → st.windStop ≤ speed →
      exec .windSecondTick s = .next ((changed true).told (news .set true))) ∧
    (s.rigged = true → s.wind.hold = true → speed ≤ st.windFull →
      exec .windSecondTick s = .next ((changed false).told (news .cleared false))))

/-! ## Chapter 4: the move queue -/

/-- R66 to R68: a MOVE_ADD whose target is CLEAR and whose route passes joins at the tail, with the next move number,
the clamped fields, its ETA, an ITEM, its CLOSE and its notice; the next move number is the one after it unless an entry
holds that. The refusals of R67 in their order.
R68: the route start, by what stands at the tail.
R71: the ETA from the distance d, the least number whose square is at least the squared length, the speed s and the rate A:
with k the ceil of s / A, 2k periods and the ceil of what is left at s, when the carrier reaches s; else 2j periods and
the ceil of what is left at A(j + 1). Each request is one that its owner takes (RequestStagePassesOrRefuses). -/
def Obligations.MoveAddJoinsTheTail : Prop :=
  (∀ (p : Port) (tag : Byte) (b : MoveAddBody) (target : Target) (release : Release) (s : State),
    s.marksSettled = true → targetOf b.kind b.mark b.point = some target → releaseOf b.release = some release →
    targetFault target = none →
    let c : Instr := .moveAdd p tag b
    s.takes p c = true →
    let m := s.carrier.mode
    let es := s.queue.entries
    let refusal := fun (status : Status) (d1 d2 : Nat) => exec c s = .next (s.served p c [closing tag status d1 d2] [])
    let cap : Option Nat := if b.speedCap = 0 then none else some (min (max b.speedCap 100) s.settings.speedCap.toNat)
    let clamps := (if cap ≠ none ∧ cap ≠ some b.speedCap then 1 else 0) + (if 500 < b.tolerance then 2 else 0)
      + (if 60000 < b.dwell then 4 else 0)
    let markCap := match target with
      | .mark n => (markAt s.marks n).bind Mark.speedCap
      | .point _ => none
    let after := if s.queue.nextId = 65535 then 1 else s.queue.nextId + 1
    let e := fun (um : Vec3) (look : LookAhead) => ({
      id := s.queue.nextId, serial := s.queue.nextSerial, target := target, markRetired := false, speedCap := cap,
      tolerance := if b.tolerance = 0 then 20 else min b.tolerance 500, dwellMs := min b.dwell 60000,
      dwell := (min b.dwell 60000 + 3) / 4, release := release, state := .queued, bound := none, lookAhead := look,
      eta := etaOf s.settings (routeStart s) um cap markCap, remaining := 0, stall := 0 } : Entry)
    (m = .offline ∨ m = .parked ∨ m.isHalted = true → refusal .wrongMode 0 0) ∧
    (m = .hold ∨ m = .steer ∨ m = .travel →
      (8 ≤ es.length → refusal .queueFull 8 0) ∧
      (es.length < 8 →
        (∀ n, target = .mark n → markAt s.marks n = none → refusal .noRecord n 0) ∧
        (∀ n r, target = .mark n → markAt s.marks n = some r → r.state = .blocked → refusal .targetBlocked n r.blocker) ∧
        (∀ x blocker, target = .point x → markTest s.zones x = (.blocked, blocker) →
          refusal .targetBlocked 0xFF blocker) ∧
        (∀ um, targetPoint s.marks target = some um → (judgeTarget s.zones s.marks target).1 = .clear →
          (∀ zone code, routeFault s.zones (routeStart s) um = some (zone, code) → refusal .routeBlocked zone code) ∧
          (routeFault s.zones (routeStart s) um = none → ∃ next look,
            exec c s = .next (State.served { s with queue := { s.queue with
                entries := es ++ [e um look], nextId := next, nextSerial := s.queue.nextSerial + 1 } }
              p c [closingItem tag (.move (e um look) es.length) (if clamps = 0 then .ok else .clamped) es.length clamps]
              [.move .added none (es.length + 1) (e um look) (some es.length)]) ∧
            (after ∉ s.queue.nextId :: es.map Entry.id → next = after) ∧
            (look = .clear ↔ ∃ h, es = [h] ∧ h.leads = true) ∧ look ≠ .blocked))))) ∧
  (∀ (p : Port) (tag : Byte) (b : MoveAddBody) (s : State), s.marksSettled = true →
    let c : Instr := .moveAdd p tag b
    s.takes p c = true →
    let refused := fun (code : Nat) => exec c s = .next (s.served p c [closing tag .outOfRange 0 code] [])
    (1 < b.kind → refused 7) ∧ (b.kind ≤ 1 → 1 < b.release → refused 8) ∧
    (b.release ≤ 1 → (b.kind = 0 → 63 < b.mark → refused 5) ∧
      ∀ axis, b.kind = 1 → positionFault b.point = some axis → refused axis)) ∧
  (∀ s : State,
    (∀ q, s.queue.entries = [] → s.path = some q → routeStart s = q.pose) ∧
    ∀ before e, s.queue.entries = before ++ [e] →
      (∀ b, e.leads = true → e.bound = some b → routeStart s = b.point) ∧
      (∀ n m, e.leads = false → e.target = .mark n → markAt s.marks n = some m →
        routeStart s = ⟨1000 * m.point.x, 1000 * m.point.y, 1000 * m.point.z⟩) ∧
      ∀ x, e.leads = false → e.target = .point x → routeStart s = ⟨1000 * x.x, 1000 * x.y, 1000 * x.z⟩) ∧
  (∀ (st : Settings) (p q : Vec3) (cap markCap : Option Nat) (a d : Nat), 0 < a → st.accelRate = a →
    let base := (st.speedCap * st.capTrim / 100).toNat
    let v := match cap with
      | some c => min c base
      | none => match markCap with
        | some c => min c base
        | none => base
    let square := (q.x - p.x) ^ 2 + (q.y - p.y) ^ 2 + (q.z - p.z) ^ 2
    let periods := fun n : Nat => etaOf st p q cap markCap = 4 * n
    0 < v → square ≤ (d : Int) * d → (∀ m : Nat, square ≤ (m : Int) * m → d ≤ m) →
    (d = 0 → periods 0) ∧
    ∀ k n, 0 < d → v ≤ k * a → k * a < v + a →
      (4 * a * k * (k + 1) ≤ d → d ≤ 4 * a * k * (k + 1) + 4 * v * n → 4 * a * k * (k + 1) + 4 * v * n < d + 4 * v →
        periods (2 * k + n)) ∧
      ∀ j, d < 4 * a * k * (k + 1) → 4 * a * j * (j + 1) ≤ d → d < 4 * a * (j + 1) * (j + 2) →
        d ≤ 4 * a * (j + 1) * (j + n) → 4 * a * (j + 1) * (j + n) < d + 4 * a * (j + 1) → periods (2 * j + n))

/-- R72, R74, R75: travel begun sets the flag and takes the head: none hands end travel EMPTY, a CUE head becomes ARMED,
an IMMEDIATE head starts. R74: a rising edge starts an ARMED head while the flag is set, and is ignored otherwise.
A start (HeadStarts, Safety.lean) binds the target and the cap, and fails on a BLOCKED target or route: the entry is
dropped, end travel is handed, and the entries behind it stay QUEUED.
R76: a start that succeeds forms the look-ahead of the entry behind the head, from the head's bound point, and a change to
BLOCKED sends its notice after STARTED. -/
def Obligations.TravelBegunAndCueStartHead : Prop :=
  (∀ (s : State) (n : Nat) (rest : List TravelHand) (es : List Entry) (news : List Notice) (ends : Option EndReason),
    s.marksSettled = true → s.hands.travel = .begun n :: rest → BecomesHead s s.queue.entries es news ends →
    exec .travelBegun s = .next ((s.queued { s.queue with travelFlag := true, lastBegun := n }
      { s.hands with travel := rest } es ends).told news)) ∧
  (∀ (s : State) (e : Entry) (more es : List Entry) (news : List Notice) (ends : Option EndReason),
    s.marksSettled = true → s.queue.entries = e :: more → e.state = .armed → s.queue.travelFlag = true →
    HeadStarts s e more es news ends → exec .cueEdge s = .next ((s.queued s.queue s.hands es ends).told news)) ∧
  (∀ s : State, s.marksSettled = true →
    (s.queue.travelFlag = false ∨ ∀ e ∈ s.queue.entries.head?, e.state ≠ .armed) → exec .cueEdge s = .next s)

/-- R77 to R79: the head takes a step result by its state. A RUNNING head arrives and dwells, or completes at once;
one at rest under brake for 250 results stalls and leaves, and the entries behind it stay QUEUED; a DWELLING head counts down and
completes. Behind a move that completes the next entry becomes the head, and is armed, started or dropped (R74, R75).
A head that is QUEUED or ARMED, and an empty queue, take nothing. That while OFFLINE the result has no effect is the
model's choice (entry 12). That the two notices of a move without dwell carry the record as it stood when removed, without a
position, is the model's deduction (entry 21), as is the look-ahead, UNCHECKED, of an entry that becomes the head (entry 22).
R78 (the row by itself: the model's choice, entry 2): a DWELLING head whose remaining dwell stands at 0 completes. -/
def Obligations.StepResultDrivesTheHead : Prop :=
    ∀ (s : State) (r : StepResult), s.marksSettled = true →
    let h := { s.hands with stepQueue := none }
    let into := fun (es : List Entry) (news : List Notice) => exec .queueStepResult s =
      .next (State.told { s with queue := { s.queue with entries := es }, hands := h } news)
    (s.hands.stepQueue = some r → s.rigged = false → exec .queueStepResult s = .next { s with hands := h }) ∧
    (s.hands.stepQueue = some r → s.rigged = true → s.queue.entries = [] → into [] []) ∧
    ∀ e more, s.queue.entries = e :: more →
      let at_ := fun (k : Nat) => { e with remaining := k }
      let left := fun (n : Nat) (reason : MoveReason) => Notice.move reason none n (at_ 0) none
      (s.hands.stepQueue = some r → s.rigged = true →
        (e.state = .queued ∨ e.state = .armed → into (e :: more) []) ∧
        (e.state = .running → r.arrival = true → 0 < e.dwell →
          let e' := { e with state := .dwelling, remaining := e.dwell, stall := 0 }
          into (e' :: more) [.move .arrived none (more.length + 1) e' (some 0)]) ∧
        (e.state = .running → r.arrival = false → ¬(r.verdict = .braked ∧ r.atRest = true) →
          into ({ e with stall := 0 } :: more) []) ∧
        (e.state = .running → r.arrival = false → r.verdict = .braked → r.atRest = true → e.stall ≠ 249 →
          into ({ e with stall := e.stall + 1 } :: more) []) ∧
        (e.state = .dwelling → 1 < e.remaining → into (at_ (e.remaining - 1) :: more) []) ∧
        ((∀ x ∈ more, x.serial ≠ e.serial) →
          (e.state = .running → r.arrival = false → r.verdict = .braked → r.atRest = true → e.stall = 249 →
            exec .queueStepResult s = .next (State.told
              { s with
                queue := { s.queue with entries := uncheckedFirst more, travelFlag := false }
                hands := { h with ends := s.hands.ends ++ [⟨s.queue.lastBegun, .stall⟩] } }
              [.move .stalled none more.length { e with stall := 250 } none])) ∧
          ∀ es news ends, s.queue.travelFlag = true → BecomesHead s more es news ends →
            (e.state = .running → r.arrival = true → e.dwell = 0 →
              exec .queueStepResult s = .next ((s.queued s.queue h es ends).told
                (left es.length .arrived :: left es.length .completed :: news))) ∧
            (e.state = .dwelling → e.remaining = 1 →
              exec .queueStepResult s = .next ((s.queued s.queue h es ends).told (left es.length .completed :: news))))) ∧
      (∀ es news ends, e.state = .dwelling → e.remaining = 0 → s.queue.travelFlag = true →
        (∀ x ∈ more, x.serial ≠ e.serial) → BecomesHead s more es news ends →
        exec .dwellEnd s = .next ((s.queued s.queue s.hands es ends).told (left es.length .completed :: news)))

/-- R80: travel ended clears the flag, returns an ARMED or RUNNING head to QUEUED, drops a RUNNING one whose mark is
retired and completes a DWELLING one; every look-ahead becomes UNCHECKED.
R82: a MOVE_CANCEL removes the entry that holds the id: a RUNNING one ends the travel; behind a DWELLING or ARMED head
that leaves, the next entry becomes the head and is armed, started or dropped (R74, R75); the entry that comes to stand
directly behind a RUNNING or DWELLING head has its look-ahead formed (R76); a QUEUED entry leaves elsewhere. R83: QUEUE_CLEAR removes
every entry with one notice. R85: QUEUE_LIST enters service. The CLOSE details that no rule
gives are the model's choice (entry 10). Each request is one that its owner takes (RequestStagePassesOrRefuses). -/
def Obligations.EntriesReturnOrLeave : Prop :=
  (∀ (s : State) (rest : List TravelHand), s.marksSettled = true → s.hands.travel = .ended :: rest →
    let bare := fun (es : List Entry) => es.map (fun e => { e with lookAhead := .unchecked })
    let into := fun (es : List Entry) (news : List Notice) => exec .travelEnded s = .next (State.told { s with
        queue := { s.queue with entries := es, travelFlag := false }, hands := { s.hands with travel := rest } } news)
    (s.queue.entries = [] → into [] []) ∧
    ∀ e more, s.queue.entries = e :: more →
      let back := { e with state := .queued, lookAhead := .unchecked }
      let freed := { back with bound := none, stall := 0 }
      (e.state = .queued → into (bare (e :: more)) []) ∧
      (e.state = .armed → into (back :: bare more) [.move .returned none (more.length + 1) back (some 0)]) ∧
      (e.state = .running → e.markRetired = false →
        into (freed :: bare more) [.move .returned none (more.length + 1) freed (some 0)]) ∧
      ((∀ x ∈ more, x.serial ≠ e.serial) →
        (e.state = .running → e.markRetired = true →
          into (bare more) [.move .dropped (some .markRetired) more.length e none]) ∧
        (e.state = .dwelling → into (bare more) [.move .completed none more.length e none]))) ∧
  (∀ (p : Port) (tag : Byte) (id : Nat) (s : State), s.marksSettled = true →
    let c : Instr := .moveCancel p tag id
    s.takes p c = true →
    (s.carrier.mode = .offline → exec c s = .next (s.served p c [closing tag .wrongMode 0 0] [])) ∧
    (s.carrier.mode ≠ .offline → (∀ e ∈ s.queue.entries, e.id ≠ id) →
      exec c s = .next (s.served p c [closing tag .noRecord 0 0] [])) ∧
    let first := fun es : List Entry => match es with
      | [] => []
      | x :: xs => { x with lookAhead := .unchecked } :: xs
    ∀ before e after, s.carrier.mode ≠ .offline → s.queue.entries = before ++ e :: after → e.id = id →
      (∀ x ∈ before, x.id ≠ id) → (∀ x ∈ before ++ after, x.serial ≠ e.serial) →
      (e.state = .queued → (∀ x ∈ before.head?, x.lookAhead = .unchecked ∧ (x.leads = false ∨ 2 ≤ before.length)) →
        before ≠ [] →
        exec c s = .next (State.served { s with queue := { s.queue with entries := before ++ after } }
          p c [closing tag .ok before.length 0] [.move .cancelled none (before ++ after).length e none])) ∧
      (e.state = .running → before = [] →
        exec c s = .next (State.served { s with
            queue := { s.queue with
              entries := first after
              travelFlag := false }
            hands := { s.hands with ends := s.hands.ends ++ [⟨s.queue.lastBegun, .cancel⟩] } }
          p c [closing tag .ok 0 0] [.move .cancelled none after.length e none])) ∧
      (e.state = .dwelling ∨ e.state = .armed → before = [] → after = [] → s.queue.travelFlag = true →
        exec c s = .next (State.served { s with
            queue := { s.queue with entries := [], travelFlag := false }
            hands := { s.hands with ends := s.hands.ends ++ [⟨s.queue.lastBegun, .empty⟩] } }
          p c [closing tag .ok 0 0] [.move .cancelled none 0 e none])) ∧
      let cancelled := fun (es : List Entry) (news : List Notice) => exec c s = .next (State.served
        { s with queue := { s.queue with entries := es } } p c [closing tag .ok before.length 0]
        (.move .cancelled none es.length e none :: news))
      (e.state = .queued → before = [] → cancelled (first after) []) ∧
      (∀ h b, e.state = .queued → before = [h] → h.leads = true → h.bound = some b →
        (after = [] → cancelled [h] []) ∧
        ∀ g more look, after = g :: more → h.serial ≠ g.serial → g.foresees s b.point look →
          cancelled (h :: { g with lookAhead := look } :: more) (blockedNews (more.length + 2) g look)) ∧
      (∀ g more, e.state = .dwelling ∨ e.state = .armed → before = [] → after = g :: more → s.queue.travelFlag = true →
        (after.map Entry.serial).Nodup →
        let f := { g with lookAhead := .unchecked }
        (g.release = .cue →
          let f' := { f with state := .armed }
          cancelled (f' :: more) [.move .armed none (more.length + 1) f' (some 0)]) ∧
        ∀ q b verdict, g.release = .immediate → s.path = some q → g.aims s b.point b.cap verdict →
          let dropped := fun (why : Failure) => exec c s = .next (State.served { s with
              queue := { s.queue with entries := more, travelFlag := false }
              hands := { s.hands with ends := s.hands.ends ++ [⟨s.queue.lastBegun, .drop⟩] } }
            p c [closing tag .ok 0 0]
            [.move .cancelled none more.length e none, .move .dropped (some why) more.length { f with bound := some b } none])
          let f' := { f with state := .running, bound := some b, stall := 0 }
          let started := Notice.move .started none (more.length + 1) f' (some 0)
          (verdict = .blocked → dropped .targetBlocked) ∧
          (verdict = .clear → ∀ zone code, routeFault s.zones q.pose b.point = some (zone, code) →
            dropped (.routeBlocked zone code)) ∧
          (verdict = .clear → routeFault s.zones q.pose b.point = none →
            (more = [] → cancelled [f'] [started]) ∧
            ∀ x rest look, more = x :: rest → x.foresees s b.point look →
              cancelled (f' :: { x with lookAhead := look } :: rest) (started :: blockedNews (rest.length + 2) x look)))) ∧
  (∀ (p : Port) (tag : Byte) (s : State), s.marksSettled = true →
    let c : Instr := .queueClear p tag
    let n := s.queue.entries.length
    (s.takes p c = true → s.carrier.mode = .offline → exec c s = .next (s.served p c [closing tag .wrongMode 0 0] [])) ∧
    (s.takes p c = true → s.carrier.mode ≠ .offline → exec c s = .next (State.served { s with
        queue := { s.queue with entries := [], travelFlag := false }
        hands := { s.hands with
          ends := s.hands.ends ++ (if s.queue.travelFlag then [⟨s.queue.lastBegun, .clear⟩] else []) } }
      p c [closing tag .ok n 0] [.queue .cleared n])) ∧
    let u := s.served p (.queueList p tag) [] []
    s.takes p (.queueList p tag) = true → exec (.queueList p tag) s = .next (u.setPort p { u.port p with service := some ⟨.queue 0, tag, 0⟩ }))

/-- R84: the queue takes the oldest report of the mark table. A retirement removes every entry that names the mark but a
RUNNING or DWELLING one, which is shown as retired; a replacement or a state change removes none; entries that do not
name the mark keep all but their look-ahead.
A retirement sends DROPPED for each entry removed, in queue order, and hands end travel with reason DROP when the ARMED head
is removed. Where the entry behind a RUNNING or DWELLING head is removed, the one that then stands there has its look-ahead
formed (R76); where a replacement or a state change names the entry behind such a head, its look-ahead is formed again. A
change to BLOCKED sends its notice after the others; that a retirement makes every removal first and forms the look-ahead
once after them is the model's choice (entry 28). Every other report leaves the queue as it is. -/
def Obligations.MarkReportsReachTheQueue : Prop :=
  (∀ (s : State) (report : MarkReport) (rest : List MarkReport), s.hands.changes = [] →
    s.hands.markReports = report :: rest → s.queue.shaped →
    let c : Instr := match report with
      | .retired _ => .retirementReport
      | .replaced _ => .replacementReport
      | .changed _ => .stateChangeReport
    ∃ t, exec c s = .next t ∧
      t = { s with
        queue := { s.queue with entries := t.queue.entries, travelFlag := t.queue.travelFlag }
        rig := t.rig, safety := t.safety, hands := { s.hands with markReports := rest, ends := t.hands.ends } } ∧
      (∀ n, report = .retired n →
        (∀ e ∈ s.queue.entries, e.target ≠ .mark n → ∃ look, { e with lookAhead := look } ∈ t.queue.entries) ∧
        (∀ e ∈ s.queue.entries, e.target = .mark n → e.leads = true → { e with markRetired := true } ∈ t.queue.entries) ∧
        (∀ e ∈ t.queue.entries, e.target = .mark n → e.leads = true ∧ e.markRetired = true) ∧
        (t.hands.ends ≠ s.hands.ends ↔
          ∃ e more, s.queue.entries = e :: more ∧ e.target = .mark n ∧ e.state = .armed)) ∧
      ((∀ n, report ≠ .retired n) →
        t.queue.travelFlag = s.queue.travelFlag ∧ t.hands.ends = s.hands.ends ∧
        t.queue.entries.map (fun e => { e with lookAhead := .unchecked }) =
          s.queue.entries.map (fun e => { e with lookAhead := .unchecked }) ∧
        (∀ e more, s.queue.entries = e :: more → e.leads = false → t.queue = s.queue ∧ t.rig = s.rig))) ∧
  (∀ (s : State) (n : Nat) (rest : List MarkReport), s.hands.changes = [] → s.hands.markReports = .retired n :: rest →
    s.queue.shaped →
    let es := s.queue.entries
    let h := { s.hands with markReports := rest }
    let hit := fun e : Entry => decide (e.target = .mark n) && !e.leads
    let left := (es.filter (fun e => !hit e)).map (fun e => if e.target = .mark n then { e with markRetired := true } else e)
    let drops := (es.filter hit).map (fun e => Notice.move .dropped (some .markRetired) left.length e none)
    let into := fun (entries : List Entry) (news : List Notice) => exec .retirementReport s =
      .next (State.told { s with queue := { s.queue with entries := entries }, hands := h } (drops ++ news))
    let lost := ∃ e more, es = e :: more ∧ e.target = .mark n ∧ e.state = .armed
    (lost → exec .retirementReport s = .next (State.told { s with
        queue := { s.queue with entries := left, travelFlag := false }
        hands := { h with ends := s.hands.ends ++ [⟨s.queue.lastBegun, .drop⟩] } } drops)) ∧
    (¬lost → (∀ e f more, es = e :: f :: more → e.leads = true → f.target ≠ .mark n) → into left []) ∧
    ∀ e f more b, es = e :: f :: more → e.leads = true → e.bound = some b → f.target = .mark n →
      (left.length = 1 → into left []) ∧
      ∀ e' g tail look, left = e' :: g :: tail → g.foresees s b.point look →
        into (e' :: { g with lookAhead := look } :: tail) (blockedNews left.length g look)) ∧
  (∀ (c : Instr) (s : State) (names : List Nat) (rest : List MarkReport), s.hands.changes = [] → s.queue.shaped →
    (∃ n, c = .replacementReport ∧ s.hands.markReports = .replaced n :: rest ∧ names = [n]) ∨
      (∃ ms, c = .stateChangeReport ∧ s.hands.markReports = .changed ms :: rest ∧ names = ms.map Prod.fst) →
    let es := s.queue.entries
    let into := fun (entries : List Entry) (news : List Notice) => exec c s = .next (State.told { s with
      queue := { s.queue with entries := entries }, hands := { s.hands with markReports := rest } } news)
    ((∀ e f more, es = e :: f :: more → e.leads = true → ∀ n ∈ names, f.target ≠ .mark n) → into es []) ∧
    ∀ e f more b n look, es = e :: f :: more → e.leads = true → e.bound = some b → n ∈ names → f.target = .mark n →
      f.foresees s b.point look →
      into (e :: { f with lookAhead := look } :: more) (blockedNews (more.length + 2) f look))

/-! ## Chapter 10: the request ports -/

/-- R168: after reset the receiver is HUNTING; one character moves it by its state; one whose stop bit is missing, and a
gap of more than 2 ms, discard the frame in progress. Only a second CRC byte that matches completes a frame. -/
def Obligations.ReceiverTakesCharacters : Prop :=
  (∀ p, (State.reset.port p).receiver = .hunting) ∧
    ∀ (p : Port) (b : Byte) (s : State),
    let r := s.port p
    let into := fun (next : Receiver) => exec (.receiveCharacter p b true) s = .next (s.setPort p { r with receiver := next })
    let hunting := Host.Outcome.next (s.setPort p { r with receiver := .hunting })
    exec (.receiveCharacter p b false) s = hunting ∧ exec (.receiveGap p) s = hunting ∧
    (r.receiver = .hunting → into (if b = 0xA5 then .len else .hunting)) ∧
    (r.receiver = .len → into (if 240 < b.toNat then .hunting else .kind b.toNat)) ∧
    (∀ n, r.receiver = .kind n → into (.tag n b)) ∧
    (∀ n k, r.receiver = .tag n k → into (if n = 0 then .crcLow ⟨k, b, []⟩ else .body k b n [])) ∧
    (∀ k t due got, r.receiver = .body k t due got →
      into (if due ≤ 1 then .crcLow ⟨k, t, got ++ [b]⟩ else .body k t (due - 1) (got ++ [b]))) ∧
    (∀ f, r.receiver = .crcLow f → into (.crcHigh f b)) ∧
    (∀ f low, r.receiver = .crcHigh f low →
      (crc f.covered ≠ b ++ low → into .hunting) ∧
      (crc f.covered = b ++ low → exec (.receiveCharacter p b true) s =
        .next (s.setPort p { r with receiver := .hunting, completed := r.completed ++ [f] })))

/-- R169, R170: the request stage takes the oldest completed frame: discarded while 4 answers wait, refused for an unknown
kind or a bad length, refused with BUSY while a request is in service unless it is ABORT, STEER or HALT, and passed to
its owner otherwise. It waits while the request before it has not been taken: the model's choice (entry 1). With no completed
frame the row leaves the part as it is: the model's choice (entry 26).
A request command that was not passed stands for its frame and its taking together (the model's choice, entry 1): its frame
goes through the same steps, behind the frames that wait, and the owner takes the request when it is passed.
R171: ABORT ends the request in service, if there is one, with ABORTED, and its own CLOSE follows; detail2 of that CLOSE, 0,
is the model's choice (entry 10). -/
def Obligations.RequestStagePassesOrRefuses : Prop :=
  (∀ (p : Port) (f : RawFrame) (rest : List RawFrame) (s : State), (s.port p).completed = f :: rest →
    let r := { s.port p with completed := rest }
    let answered := fun (status : Status) (d1 d2 : Nat) =>
      exec (.requestFrame p) s = .next (s.setPort p (r.answered [closing f.tag status d1 d2]))
    (∀ c, r.passed = some c → exec (.requestFrame p) s = .next s) ∧
    (r.passed = none → 4 ≤ r.answers.length → exec (.requestFrame p) s = .next (s.setPort p r)) ∧
    (r.passed = none → r.answers.length < 4 →
      (decodeRequest p f = .unknownKind → answered .unknownKind f.kind.toNat 0) ∧
      (decodeRequest p f = .badLength → answered .badLength f.body.length f.kind.toNat) ∧
      ∀ c, decodeRequest p f = .request c →
        let passes := c = .abort p f.tag ∨ (∃ v, c = .steer p f.tag v) ∨ c = .halt p f.tag
        (r.service = none ∨ passes → exec (.requestFrame p) s = .next (s.setPort p { r with passed := some c })) ∧
        (∀ v, r.service = some v → ¬passes → answered .busy v.work.kind 0))) ∧
  (∀ (p : Port) (s : State), (s.port p).completed = [] → exec (.requestFrame p) s = .next s) ∧
  (∀ (c : Instr) (p : Port) (f : RawFrame) (s : State), encodeRequest c = some (p, f) →
    let r := s.port p
    let passes := c = .abort p f.tag ∨ (∃ v, c = .steer p f.tag v) ∨ c = .halt p f.tag
    (s.takes p c = true ↔ r.passed = some c ∨
      (r.passed = none ∧ r.completed = [] ∧ r.answers.length < 4 ∧ (r.service = none ∨ passes))) ∧
    (r.passed ≠ some c → r.passed ≠ none ∨ r.completed ≠ [] →
      exec c s = .next (s.setPort p { r with completed := r.completed ++ [f] })) ∧
    (r.passed = none → r.completed = [] → 4 ≤ r.answers.length → exec c s = .next s) ∧
    (∀ v, r.passed = none → r.completed = [] → r.answers.length < 4 → r.service = some v → ¬passes →
      exec c s = .next (s.setPort p (r.answered [closing f.tag .busy v.work.kind 0]))) ∧
    (∀ u, c.wellFormed = true → r.passed = none → r.completed = [] →
      exec (.requestFrame p) (s.setPort p { r with completed := [f] }) = .next u →
      exec c s = if (u.port p).passed = some c then exec c u else .next u)) ∧
  (∀ (p : Port) (tag : Byte) (s : State),
    let c : Instr := .abort p tag
    s.takes p c = true →
    ((s.port p).service = none → exec c s = .next (s.served p c [closing tag .ok 0 0] [])) ∧
    (∀ v, (s.port p).service = some v → v.work.isListing = true → v.sent < 256 →
      let u := s.served p c [closing v.tag .aborted v.sent 0, closing tag .ok 1 0] []
      exec c s = .next (u.setPort p { u.port p with service := none })) ∧
    (∀ v l check, (s.port p).service = some v → v.work = .laneCheck l → (s.tension.lanes.get l).check = some check →
      let lane := s.tension.lanes.get l
      let lane' : LaneRec := { lane with state := .unchecked, watch := false, check := none }
      let u := State.served { s with tension := { s.tension with lanes := s.tension.lanes.set l lane' } } p c
        [closing v.tag .aborted l.val check.matched, closing tag .ok 1 0]
        [.lane .aborted l .unchecked lane.state (s.settings.laneMap.get l) check.matched]
      exec c s = .next (u.setPort p { u.port p with service := none })))

/-- R172 to R174, R176: on a free line the arbiter begins the answer at the head of the answer queue, its ITEMs and then
its CLOSE; else the oldest notice; else the next ITEM of the listing in service, or its CLOSE; else the telemetry that
is due, which clears the due and overflow flags; else the line is idle. A listing's ITEM is the record of the lowest number
above its cursor that matches the filter (R44, R59), or the oldest entry added after the one listed last, with its position
(R85), and its CLOSE carries the count of ITEMs. A lane check in service has no frame of its own, and telemetry goes on.
R175, R179 to R182: the bytes of a CLOSE, of an ITEM of each record type, of a notice of each kind and of a telemetry frame, field
by field (Safety.lean), with the codes of Tables 11-8 and 11-10. Telemetry has no field for the tension cap, as Table 11-7a
has none: the model's deduction where R142 says otherwise (entry 30). Nor have telemetry and LANE notices one for a lane's
latest output, or LANE notices one for winch tensions: the model's deduction where R129 says otherwise (entry 32).
R174: a period expiry counts the interval down, and at its end reloads it and sets the due flag; an interval of 0 does
nothing. The row by itself acts on a countdown at 0: the model's choice (entry 2). -/
def Obligations.LineServesClassesInOrder : Prop :=
  (∀ (p : Port) (s : State),
    let r := s.port p
    let begins := fun (f : RawFrame) (r' : PortRec) =>
      exec (.portLineFree p) s = .next (s.setPort p { r' with line := some f.wire })
    (∀ a rest, r.answers = a :: rest →
      (∀ i more, a.items = i :: more →
        begins ⟨0x80, a.tag, i.body⟩ { r with answers := ⟨a.tag, more, a.close⟩ :: rest }) ∧
      (a.items = [] → begins ⟨0x81, a.tag, a.close.body⟩ { r with answers := rest })) ∧
    (∀ n rest, r.answers = [] → r.notices = n :: rest → begins ⟨0x90, 0, n.body⟩ { r with notices := rest }) ∧
    (∀ v, r.answers = [] → r.notices = [] → r.service = some v →
      (∀ f cursor z, v.work = .zones f cursor → z ∈ s.zones → cursor < z.number → f.admits z = true →
        s.zones.Pairwise (fun a b => a.number < b.number) →
        (∀ y ∈ s.zones, cursor < y.number → f.admits y = true → z.number ≤ y.number) →
        begins ⟨0x80, v.tag, (Item.zone z).body⟩
          { r with service := some ⟨.zones f z.number, v.tag, v.sent + 1⟩ }) ∧
      (∀ f cursor, v.work = .zones f cursor → (∀ z ∈ s.zones, cursor < z.number → f.admits z = false) → v.sent < 256 →
        begins ⟨0x81, v.tag, [0x00, BitVec.ofNat 8 v.sent, 0]⟩ { r with service := none }) ∧
      (∀ f cursor m, v.work = .marks f cursor →
        let above := fun n : Nat => ∀ k, cursor = some k → k < n
        m ∈ s.marks → above m.number → f.admits m = true → s.marks.Pairwise (fun a b => a.number < b.number) →
        (∀ y ∈ s.marks, above y.number → f.admits y = true → m.number ≤ y.number) →
        begins ⟨0x80, v.tag, (Item.mark m).body⟩
          { r with service := some ⟨.marks f (some m.number), v.tag, v.sent + 1⟩ }) ∧
      (∀ f cursor, v.work = .marks f cursor →
        (∀ m ∈ s.marks, (∀ k, cursor = some k → k < m.number) → f.admits m = false) → v.sent < 256 →
        begins ⟨0x81, v.tag, [0x00, BitVec.ofNat 8 v.sent, 0]⟩ { r with service := none }) ∧
      (∀ cursor before e after, v.work = .queue cursor → s.queue.entries = before ++ e :: after →
        (∀ x ∈ before, x.serial ≤ cursor) → cursor < e.serial →
        begins ⟨0x80, v.tag, (Item.move e before.length).body⟩
          { r with service := some ⟨.queue e.serial, v.tag, v.sent + 1⟩ }) ∧
      (∀ cursor, v.work = .queue cursor → (∀ e ∈ s.queue.entries, e.serial ≤ cursor) → v.sent < 256 →
        begins ⟨0x81, v.tag, [0x00, BitVec.ofNat 8 v.sent, 0]⟩ { r with service := none })) ∧
    (r.answers = [] → r.notices = [] → (∀ v, r.service = some v → ∃ l, v.work = .laneCheck l) →
      (r.due = true → begins ⟨0x91, 0, telemetryBody s r.overflow⟩ { r with due := false, overflow := false }) ∧
      (r.due = false → exec (.portLineFree p) s = .next (s.setPort p { r with line := none })))) ∧
  (∀ (p : Port) (s : State),
    let r := s.port p
    let reloaded := Host.Outcome.next (s.setPort p { r with countdown := r.interval, due := true })
    (r.interval = 0 → exec (.portPeriodExpiry p) s = .next s) ∧
    (r.interval ≠ 0 → 1 < r.countdown →
      exec (.portPeriodExpiry p) s = .next (s.setPort p { r with countdown := r.countdown - 1 })) ∧
    (r.interval ≠ 0 → r.countdown ≤ 1 → exec (.portPeriodExpiry p) s = reloaded) ∧
    (r.interval ≠ 0 → r.countdown = 0 → exec (.telemetryDue p) s = reloaded)) ∧
  ((∀ c : Close, c.body = packed [codeField c.status.code, natField 1 c.detail1, natField 1 c.detail2]) ∧
    (∀ i : Item, i.laidOut) ∧ (∀ n : Notice, n.laidOut) ∧ (∀ (s : State) (overflow : Bool), telemetryLaidOut s overflow) ∧
    codesListed)
end

