-- ==== Sys2Proof/Laws/PerInstr.lean ====
section
/-! SUPPORT. One lemma per command for the families of LAWS.json. -/

/-- Table 11-9: the frame of a request carries a kind that the request stage knows, at the port the request names. -/
def Sys2Proof.Laws.Wire.Statement (c : Sys2Proof.Instr) : Prop :=
  ∀ p f, Sys2Proof.encodeRequest c = some (p, f) →
    c.port? = some p ∧ Sys2Proof.decodeRequest p f ≠ Sys2Proof.Parsed.unknownKind

namespace Sys2Proof.Laws

theorem fixedLength_known (body : List Byte) (len : Nat) (c : Instr) : fixedLength body len c ≠ Parsed.unknownKind := by
  unfold fixedLength; split <;> simp

theorem decodeMarkSet_known (p : Port) (tag : Byte) (b : List Byte) : decodeMarkSet p tag b ≠ Parsed.unknownKind := by
  unfold decodeMarkSet; repeat' split
  all_goals simp

theorem decodeMarkHere_known (p : Port) (tag : Byte) (b : List Byte) : decodeMarkHere p tag b ≠ Parsed.unknownKind := by
  unfold decodeMarkHere; repeat' split
  all_goals simp

/-- A command that is no request has no frame. -/
theorem wire_of_none (c : Instr) (h : encodeRequest c = none) : Wire.Statement c := fun _ _ h' => by simp [h] at h'

/-- What a request's lemma comes down to: its frame, and that its kind is known. -/
theorem wire_of_some (c : Instr) (p : Port) (f : Machine.RawFrame) (h : encodeRequest c = some (p, f))
    (known : decodeRequest p f ≠ Parsed.unknownKind) : Wire.Statement c := by
  intro p' f' h'
  obtain ⟨rfl, rfl⟩ : p = p' ∧ f = f' := by simpa [h] using h'
  exact ⟨by simp [Instr.port?, h], known⟩

theorem Wire.hardReset (lines : ResetLines) : Wire.Statement (.hardReset lines) :=
  wire_of_none _ rfl
theorem Wire.servoStep : Wire.Statement (.servoStep) :=
  wire_of_none _ rfl
theorem Wire.setpointWrite : Wire.Statement (.setpointWrite) :=
  wire_of_none _ rfl
theorem Wire.zoneStepResult : Wire.Statement (.zoneStepResult) :=
  wire_of_none _ rfl
theorem Wire.queueStepResult : Wire.Statement (.queueStepResult) :=
  wire_of_none _ rfl
theorem Wire.dwellEnd : Wire.Statement (.dwellEnd) :=
  wire_of_none _ rfl
theorem Wire.carrierStepResult : Wire.Statement (.carrierStepResult) :=
  wire_of_none _ rfl
theorem Wire.drumStepResult : Wire.Statement (.drumStepResult) :=
  wire_of_none _ rfl
theorem Wire.zoneSecondTick : Wire.Statement (.zoneSecondTick) :=
  wire_of_none _ rfl
theorem Wire.zoneLapse (zone : Nat) : Wire.Statement (.zoneLapse zone) :=
  wire_of_none _ rfl
theorem Wire.drumSecondTick : Wire.Statement (.drumSecondTick) :=
  wire_of_none _ rfl
theorem Wire.windSecondTick : Wire.Statement (.windSecondTick) :=
  wire_of_none _ rfl
theorem Wire.windHoldChange : Wire.Statement (.windHoldChange) :=
  wire_of_none _ rfl
theorem Wire.anemometerPulse : Wire.Statement (.anemometerPulse) :=
  wire_of_none _ rfl
theorem Wire.encoderTransition (winch : Winch) (levels : Levels) : Wire.Statement (.encoderTransition winch levels) :=
  wire_of_none _ rfl
theorem Wire.sampleArrival (lane : Lane) (word : BitVec 16) : Wire.Statement (.sampleArrival lane word) :=
  wire_of_none _ rfl
theorem Wire.silenceExpiry (lane : Lane) : Wire.Statement (.silenceExpiry lane) :=
  wire_of_none _ rfl
theorem Wire.cueEdge : Wire.Statement (.cueEdge) :=
  wire_of_none _ rfl
theorem Wire.estopActive (level : Bool) : Wire.Statement (.estopActive level) :=
  wire_of_none _ rfl
theorem Wire.faultReport : Wire.Statement (.faultReport) :=
  wire_of_none _ rfl
theorem Wire.freeze : Wire.Statement (.freeze) :=
  wire_of_none _ rfl
theorem Wire.raiseStop : Wire.Statement (.raiseStop) :=
  wire_of_none _ rfl
theorem Wire.drivePeriodExpiry : Wire.Statement (.drivePeriodExpiry) :=
  wire_of_none _ rfl
theorem Wire.statusTimeout (winch : Winch) : Wire.Statement (.statusTimeout winch) :=
  wire_of_none _ rfl
theorem Wire.keepalive : Wire.Statement (.keepalive) :=
  wire_of_none _ rfl
theorem Wire.transmitBegin : Wire.Statement (.transmitBegin) :=
  wire_of_none _ rfl
theorem Wire.transmissionEnd (outcome : TxOutcome) : Wire.Statement (.transmissionEnd outcome) :=
  wire_of_none _ rfl
theorem Wire.statusReceived (frame : CanFrame) : Wire.Statement (.statusReceived frame) :=
  wire_of_none _ rfl
theorem Wire.travelBegun : Wire.Statement (.travelBegun) :=
  wire_of_none _ rfl
theorem Wire.travelEnded : Wire.Statement (.travelEnded) :=
  wire_of_none _ rfl
theorem Wire.endTravel : Wire.Statement (.endTravel) :=
  wire_of_none _ rfl
theorem Wire.changeInForceReport : Wire.Statement (.changeInForceReport) :=
  wire_of_none _ rfl
theorem Wire.retirementReport : Wire.Statement (.retirementReport) :=
  wire_of_none _ rfl
theorem Wire.replacementReport : Wire.Statement (.replacementReport) :=
  wire_of_none _ rfl
theorem Wire.stateChangeReport : Wire.Statement (.stateChangeReport) :=
  wire_of_none _ rfl
theorem Wire.receiveCharacter (port : Port) (byte : Byte) (stopBit : Bool) : Wire.Statement (.receiveCharacter port byte stopBit) :=
  wire_of_none _ rfl
theorem Wire.receiveGap (port : Port) : Wire.Statement (.receiveGap port) :=
  wire_of_none _ rfl
theorem Wire.requestFrame (port : Port) : Wire.Statement (.requestFrame port) :=
  wire_of_none _ rfl
theorem Wire.portLineFree (port : Port) : Wire.Statement (.portLineFree port) :=
  wire_of_none _ rfl
theorem Wire.portPeriodExpiry (port : Port) : Wire.Statement (.portPeriodExpiry port) :=
  wire_of_none _ rfl
theorem Wire.telemetryDue (port : Port) : Wire.Statement (.telemetryDue port) :=
  wire_of_none _ rfl
theorem Wire.set (port : Port) (tag : Byte) (id : Nat) (index : Nat) (value : Vec3) : Wire.Statement (.set port tag id index value) :=
  wire_of_some _ _ _ rfl (fixedLength_known _ _ _)
theorem Wire.get (port : Port) (tag : Byte) (id : Nat) (index : Nat) : Wire.Statement (.get port tag id index) :=
  wire_of_some _ _ _ rfl (fixedLength_known _ _ _)
theorem Wire.rigCommit (port : Port) (tag : Byte) (pose : Vec3) : Wire.Statement (.rigCommit port tag pose) :=
  wire_of_some _ _ _ rfl (fixedLength_known _ _ _)
theorem Wire.unrig (port : Port) (tag : Byte) : Wire.Statement (.unrig port tag) :=
  wire_of_some _ _ _ rfl (fixedLength_known _ _ _)
theorem Wire.laneCheck (port : Port) (tag : Byte) (lane : Nat) : Wire.Statement (.laneCheck port tag lane) :=
  wire_of_some _ _ _ rfl (fixedLength_known _ _ _)
theorem Wire.zoneAdd (port : Port) (tag : Byte) (body : ZoneAddBody) : Wire.Statement (.zoneAdd port tag body) :=
  wire_of_some _ _ _ rfl (fixedLength_known _ _ _)
theorem Wire.zoneEdit (port : Port) (tag : Byte) (body : ZoneEditBody) : Wire.Statement (.zoneEdit port tag body) :=
  wire_of_some _ _ _ rfl (fixedLength_known _ _ _)
theorem Wire.zoneRetire (port : Port) (tag : Byte) (zone : Nat) : Wire.Statement (.zoneRetire port tag zone) :=
  wire_of_some _ _ _ rfl (fixedLength_known _ _ _)
theorem Wire.zoneLock (port : Port) (tag : Byte) (zone : Nat) : Wire.Statement (.zoneLock port tag zone) :=
  wire_of_some _ _ _ rfl (fixedLength_known _ _ _)
theorem Wire.zoneUnlock (port : Port) (tag : Byte) (zone : Nat) : Wire.Statement (.zoneUnlock port tag zone) :=
  wire_of_some _ _ _ rfl (fixedLength_known _ _ _)
theorem Wire.zoneFix (port : Port) (tag : Byte) (zone : Nat) : Wire.Statement (.zoneFix port tag zone) :=
  wire_of_some _ _ _ rfl (fixedLength_known _ _ _)
theorem Wire.zoneRead (port : Port) (tag : Byte) (zone : Nat) : Wire.Statement (.zoneRead port tag zone) :=
  wire_of_some _ _ _ rfl (fixedLength_known _ _ _)
theorem Wire.zoneList (port : Port) (tag : Byte) (filter : Nat) (code : Nat) : Wire.Statement (.zoneList port tag filter code) :=
  wire_of_some _ _ _ rfl (fixedLength_known _ _ _)
theorem Wire.markSet (port : Port) (tag : Byte) (body : MarkSetBody) : Wire.Statement (.markSet port tag body) :=
  wire_of_some _ _ _ rfl (decodeMarkSet_known _ _ _)
theorem Wire.markHere (port : Port) (tag : Byte) (body : MarkHereBody) : Wire.Statement (.markHere port tag body) :=
  wire_of_some _ _ _ rfl (decodeMarkHere_known _ _ _)
theorem Wire.markRetire (port : Port) (tag : Byte) (mark : Nat) : Wire.Statement (.markRetire port tag mark) :=
  wire_of_some _ _ _ rfl (fixedLength_known _ _ _)
theorem Wire.markRead (port : Port) (tag : Byte) (mark : Nat) : Wire.Statement (.markRead port tag mark) :=
  wire_of_some _ _ _ rfl (fixedLength_known _ _ _)
theorem Wire.markList (port : Port) (tag : Byte) (filter : Nat) : Wire.Statement (.markList port tag filter) :=
  wire_of_some _ _ _ rfl (fixedLength_known _ _ _)
theorem Wire.moveAdd (port : Port) (tag : Byte) (body : MoveAddBody) : Wire.Statement (.moveAdd port tag body) :=
  wire_of_some _ _ _ rfl (fixedLength_known _ _ _)
theorem Wire.moveCancel (port : Port) (tag : Byte) (id : Nat) : Wire.Statement (.moveCancel port tag id) :=
  wire_of_some _ _ _ rfl (fixedLength_known _ _ _)
theorem Wire.queueClear (port : Port) (tag : Byte) : Wire.Statement (.queueClear port tag) :=
  wire_of_some _ _ _ rfl (fixedLength_known _ _ _)
theorem Wire.queueList (port : Port) (tag : Byte) : Wire.Statement (.queueList port tag) :=
  wire_of_some _ _ _ rfl (fixedLength_known _ _ _)
theorem Wire.run (port : Port) (tag : Byte) : Wire.Statement (.run port tag) :=
  wire_of_some _ _ _ rfl (fixedLength_known _ _ _)
theorem Wire.stop (port : Port) (tag : Byte) : Wire.Statement (.stop port tag) :=
  wire_of_some _ _ _ rfl (fixedLength_known _ _ _)
theorem Wire.takeStick (port : Port) (tag : Byte) : Wire.Statement (.takeStick port tag) :=
  wire_of_some _ _ _ rfl (fixedLength_known _ _ _)
theorem Wire.steer (port : Port) (tag : Byte) (velocity : Vec3) : Wire.Statement (.steer port tag velocity) :=
  wire_of_some _ _ _ rfl (fixedLength_known _ _ _)
theorem Wire.releaseStick (port : Port) (tag : Byte) : Wire.Statement (.releaseStick port tag) :=
  wire_of_some _ _ _ rfl (fixedLength_known _ _ _)
theorem Wire.park (port : Port) (tag : Byte) : Wire.Statement (.park port tag) :=
  wire_of_some _ _ _ rfl (fixedLength_known _ _ _)
theorem Wire.unpark (port : Port) (tag : Byte) : Wire.Statement (.unpark port tag) :=
  wire_of_some _ _ _ rfl (fixedLength_known _ _ _)
theorem Wire.halt (port : Port) (tag : Byte) : Wire.Statement (.halt port tag) :=
  wire_of_some _ _ _ rfl (fixedLength_known _ _ _)
theorem Wire.clearHalt (port : Port) (tag : Byte) : Wire.Statement (.clearHalt port tag) :=
  wire_of_some _ _ _ rfl (fixedLength_known _ _ _)
theorem Wire.abort (port : Port) (tag : Byte) : Wire.Statement (.abort port tag) :=
  wire_of_some _ _ _ rfl (fixedLength_known _ _ _)

end Sys2Proof.Laws
end

