-- ==== Sys2Proof/Laws/State.lean ====
section
/-! SUPPORT. One lemma per field per update, and the normal form of what an event leaves at the ports: every meaning's
answers and notices gather into one `State.served` or `State.told` over a plain record update. -/

namespace Sys2Proof.Machine

/-! ## A port's record -/

theorem port_setPort (s : State) (p : Port) (r : PortRec) : (s.setPort p r).port p = r := by cases p <;> rfl

theorem setPort_port (s : State) (p : Port) : s.setPort p (s.port p) = s := by cases p <;> rfl

theorem setPort_setPort (s : State) (p : Port) (r r' : PortRec) : (s.setPort p r).setPort p r' = s.setPort p r' := by
  cases p <;> rfl

@[simp] theorem setPort_settings (s : State) (p : Port) (r : PortRec) : (s.setPort p r).settings = s.settings := by cases p <;> rfl

@[simp] theorem setPort_zones (s : State) (p : Port) (r : PortRec) : (s.setPort p r).zones = s.zones := by cases p <;> rfl

@[simp] theorem setPort_refBox (s : State) (p : Port) (r : PortRec) : (s.setPort p r).refBox = s.refBox := by cases p <;> rfl

@[simp] theorem setPort_marks (s : State) (p : Port) (r : PortRec) : (s.setPort p r).marks = s.marks := by cases p <;> rfl

@[simp] theorem setPort_queue (s : State) (p : Port) (r : PortRec) : (s.setPort p r).queue = s.queue := by cases p <;> rfl

@[simp] theorem setPort_carrier (s : State) (p : Port) (r : PortRec) : (s.setPort p r).carrier = s.carrier := by cases p <;> rfl

@[simp] theorem setPort_path (s : State) (p : Port) (r : PortRec) : (s.setPort p r).path = s.path := by cases p <;> rfl

@[simp] theorem setPort_tension (s : State) (p : Port) (r : PortRec) : (s.setPort p r).tension = s.tension := by cases p <;> rfl

@[simp] theorem setPort_drums (s : State) (p : Port) (r : PortRec) : (s.setPort p r).drums = s.drums := by cases p <;> rfl

@[simp] theorem setPort_wind (s : State) (p : Port) (r : PortRec) : (s.setPort p r).wind = s.wind := by cases p <;> rfl

@[simp] theorem setPort_bus (s : State) (p : Port) (r : PortRec) : (s.setPort p r).bus = s.bus := by cases p <;> rfl

@[simp] theorem setPort_periods (s : State) (p : Port) (r : PortRec) : (s.setPort p r).periods = s.periods := by cases p <;> rfl

@[simp] theorem setPort_estop (s : State) (p : Port) (r : PortRec) : (s.setPort p r).estop = s.estop := by cases p <;> rfl

@[simp] theorem setPort_hands (s : State) (p : Port) (r : PortRec) : (s.setPort p r).hands = s.hands := by cases p <;> rfl

@[simp] theorem setPort_pending (s : State) (p : Port) (r : PortRec) : (s.setPort p r).pending = s.pending := by cases p <;> rfl

@[simp] theorem setPort_rigged (s : State) (p : Port) (r : PortRec) : (s.setPort p r).rigged = s.rigged := by cases p <;> rfl

/-! ## Requests served -/

@[simp] theorem served_settings (s : State) (p : Port) (c : Instr) (as : List Answer) (ns : List Notice) :
    (s.served p c as ns).settings = s.settings := by cases p <;> rfl

@[simp] theorem served_zones (s : State) (p : Port) (c : Instr) (as : List Answer) (ns : List Notice) :
    (s.served p c as ns).zones = s.zones := by cases p <;> rfl

@[simp] theorem served_refBox (s : State) (p : Port) (c : Instr) (as : List Answer) (ns : List Notice) :
    (s.served p c as ns).refBox = s.refBox := by cases p <;> rfl

@[simp] theorem served_marks (s : State) (p : Port) (c : Instr) (as : List Answer) (ns : List Notice) :
    (s.served p c as ns).marks = s.marks := by cases p <;> rfl

@[simp] theorem served_queue (s : State) (p : Port) (c : Instr) (as : List Answer) (ns : List Notice) :
    (s.served p c as ns).queue = s.queue := by cases p <;> rfl

@[simp] theorem served_carrier (s : State) (p : Port) (c : Instr) (as : List Answer) (ns : List Notice) :
    (s.served p c as ns).carrier = s.carrier := by cases p <;> rfl

@[simp] theorem served_path (s : State) (p : Port) (c : Instr) (as : List Answer) (ns : List Notice) :
    (s.served p c as ns).path = s.path := by cases p <;> rfl

@[simp] theorem served_tension (s : State) (p : Port) (c : Instr) (as : List Answer) (ns : List Notice) :
    (s.served p c as ns).tension = s.tension := by cases p <;> rfl

@[simp] theorem served_drums (s : State) (p : Port) (c : Instr) (as : List Answer) (ns : List Notice) :
    (s.served p c as ns).drums = s.drums := by cases p <;> rfl

@[simp] theorem served_wind (s : State) (p : Port) (c : Instr) (as : List Answer) (ns : List Notice) :
    (s.served p c as ns).wind = s.wind := by cases p <;> rfl

@[simp] theorem served_bus (s : State) (p : Port) (c : Instr) (as : List Answer) (ns : List Notice) :
    (s.served p c as ns).bus = s.bus := by cases p <;> rfl

@[simp] theorem served_periods (s : State) (p : Port) (c : Instr) (as : List Answer) (ns : List Notice) :
    (s.served p c as ns).periods = s.periods := by cases p <;> rfl

@[simp] theorem served_estop (s : State) (p : Port) (c : Instr) (as : List Answer) (ns : List Notice) :
    (s.served p c as ns).estop = s.estop := by cases p <;> rfl

@[simp] theorem served_hands (s : State) (p : Port) (c : Instr) (as : List Answer) (ns : List Notice) :
    (s.served p c as ns).hands = s.hands := by cases p <;> rfl

@[simp] theorem served_pending (s : State) (p : Port) (c : Instr) (as : List Answer) (ns : List Notice) :
    (s.served p c as ns).pending = s.pending := by cases p <;> rfl

@[simp] theorem served_rigged (s : State) (p : Port) (c : Instr) (as : List Answer) (ns : List Notice) :
    (s.served p c as ns).rigged = s.rigged := by cases p <;> rfl

/-! ## Notices told -/

@[simp] theorem told_settings (s : State) (ns : List Notice) : (s.told ns).settings = s.settings := rfl

@[simp] theorem told_zones (s : State) (ns : List Notice) : (s.told ns).zones = s.zones := rfl

@[simp] theorem told_refBox (s : State) (ns : List Notice) : (s.told ns).refBox = s.refBox := rfl

@[simp] theorem told_marks (s : State) (ns : List Notice) : (s.told ns).marks = s.marks := rfl

@[simp] theorem told_queue (s : State) (ns : List Notice) : (s.told ns).queue = s.queue := rfl

@[simp] theorem told_carrier (s : State) (ns : List Notice) : (s.told ns).carrier = s.carrier := rfl

@[simp] theorem told_path (s : State) (ns : List Notice) : (s.told ns).path = s.path := rfl

@[simp] theorem told_tension (s : State) (ns : List Notice) : (s.told ns).tension = s.tension := rfl

@[simp] theorem told_drums (s : State) (ns : List Notice) : (s.told ns).drums = s.drums := rfl

@[simp] theorem told_wind (s : State) (ns : List Notice) : (s.told ns).wind = s.wind := rfl

@[simp] theorem told_bus (s : State) (ns : List Notice) : (s.told ns).bus = s.bus := rfl

@[simp] theorem told_periods (s : State) (ns : List Notice) : (s.told ns).periods = s.periods := rfl

@[simp] theorem told_estop (s : State) (ns : List Notice) : (s.told ns).estop = s.estop := rfl

@[simp] theorem told_hands (s : State) (ns : List Notice) : (s.told ns).hands = s.hands := rfl

@[simp] theorem told_pending (s : State) (ns : List Notice) : (s.told ns).pending = s.pending := rfl

@[simp] theorem told_rigged (s : State) (ns : List Notice) : (s.told ns).rigged = s.rigged := rfl

theorem queueNotice_answers (r : PortRec) (n : Notice) : (r.queueNotice n).answers = r.answers := by
  unfold PortRec.queueNotice; by_cases h : r.notices.length < Config.maxNotices <;> simp [h]

theorem queueNotice_answered (r : PortRec) (n : Notice) (as : List Answer) :
    (r.queueNotice n).answered as = (r.answered as).queueNotice n := by
  unfold PortRec.queueNotice PortRec.answered; by_cases h : r.notices.length < Config.maxNotices <;> simp [h]

theorem heard_answered (ns : List Notice) (r : PortRec) (as : List Answer) :
    (r.heard ns).answered as = (r.answered as).heard ns := by
  induction ns generalizing r with
  | nil => rfl
  | cons n ns ih => simpa [PortRec.heard, queueNotice_answered] using ih (r.queueNotice n)

theorem heard_append (r : PortRec) (ns ms : List Notice) : (r.heard ns).heard ms = r.heard (ns ++ ms) := by
  simp [PortRec.heard]

theorem answered_append (r : PortRec) (as bs : List Answer) : (r.answered as).answered bs = r.answered (as ++ bs) := by
  simp [PortRec.answered]

/-- R173: a queue of 16 stays a queue of at most 16. -/
theorem queueNotice_bound (r : PortRec) (n : Notice) (h : r.notices.length ≤ Config.maxNotices) :
    (r.queueNotice n).notices.length ≤ Config.maxNotices := by
  unfold PortRec.queueNotice; by_cases g : r.notices.length < Config.maxNotices <;> simp [g]; omega

/-- What a notice can do to a port: its queue and its overflow flag may change, nothing else. -/
theorem heard_frame (ns : List Notice) (r : PortRec) :
    ∃ notices overflow, r.heard ns = { r with notices := notices, overflow := overflow } := by
  induction ns generalizing r with
  | nil => exact ⟨r.notices, r.overflow, rfl⟩
  | cons n ns ih =>
      obtain ⟨a, b, h⟩ := ih (r.queueNotice n)
      refine ⟨a, b, ?_⟩
      show (r.queueNotice n).heard ns = _
      rw [h]
      unfold PortRec.queueNotice
      by_cases g : r.notices.length < Config.maxNotices <;> simp [g]

/-! ## The normal form -/

theorem arrive_eq (s : State) (p : Port) (c : Instr) : s.arrive p c = s.setPort p ((s.port p).taken c) := by
  by_cases h : (s.port p).passed = some c
  · simp [State.arrive, PortRec.taken, h]
  · simp [State.arrive, PortRec.taken, h, setPort_port]

@[simp] theorem arrive_served (s : State) (p : Port) (c : Instr) : s.arrive p c = s.served p c [] [] := by
  rw [arrive_eq]; cases p <;> simp [State.served, State.setPort, State.port, PortRec.answered, PortRec.heard]

@[simp] theorem notify_told (s : State) (n : Notice) : s.notify n = s.told [n] := rfl

@[simp] theorem notifyAll_told (s : State) (ns : List Notice) : s.notifyAll ns = s.told ns := by
  induction ns generalizing s with
  | nil => rfl
  | cons n ns ih => exact ih (s.notify n)

@[simp] theorem told_nil (s : State) : s.told [] = s := rfl

@[simp] theorem told_told (s : State) (ns ms : List Notice) : (s.told ns).told ms = s.told (ns ++ ms) := by
  simp [State.told, heard_append]

@[simp] theorem served_told (s : State) (p : Port) (c : Instr) (as : List Answer) (ns ms : List Notice) :
    (s.served p c as ns).told ms = s.served p c as (ns ++ ms) := by
  cases p <;> simp [State.told, State.served, heard_append]

@[simp] theorem served_answer (s : State) (p : Port) (c : Instr) (as : List Answer) (ns : List Notice) (a : Answer) :
    (s.served p c as ns).answer p a = s.served p c (as ++ [a]) ns := by
  have h : ∀ r : PortRec, ((r.taken c).answered (as ++ [a])).heard ns = (((r.taken c).answered as).heard ns).answered [a] := by
    intro r; rw [heard_answered, answered_append]
  cases p <;> simp only [State.served, h] <;> rfl

@[simp] theorem served_close (s : State) (p : Port) (c : Instr) (as : List Answer) (ns : List Notice) (tag : Byte)
    (st : Status) (d1 d2 : Nat) :
    (s.served p c as ns).close p tag st d1 d2 = s.served p c (as ++ [closing tag st d1 d2]) ns :=
  served_answer s p c as ns _

@[simp] theorem served_closeItem (s : State) (p : Port) (c : Instr) (as : List Answer) (ns : List Notice) (tag : Byte)
    (i : Item) (st : Status) (d1 d2 : Nat) :
    (s.served p c as ns).closeItem p tag i st d1 d2 = s.served p c (as ++ [closingItem tag i st d1 d2]) ns :=
  served_answer s p c as ns _

/-- A record update of a state that was served is a served record update. -/
@[simp] theorem served_mk (s : State) (p : Port) (c : Instr) (as : List Answer) (ns : List Notice) (st : Settings) (zs : List Zone) (rb : Option Box) (ms : List Mark) (q : MoveQueue) (k : Carrier) (pa : Option Path)
    (te : Tension) (dr : Quad Drum) (wi : Wind) (bu : Bus) (pe : Nat) (es : Bool) (ha : Hands) (pd : List Instr) :
    (State.mk st zs rb ms q k pa te dr wi bu (s.served p c as ns).rig (s.served p c as ns).safety pe es ha pd) =
      State.served (State.mk st zs rb ms q k pa te dr wi bu s.rig s.safety pe es ha pd) p c as ns := by
  cases p <;> rfl

/-- A record update of a state that was told is a told record update. -/
@[simp] theorem told_mk (s : State) (ns : List Notice) (st : Settings) (zs : List Zone) (rb : Option Box) (ms : List Mark) (q : MoveQueue) (k : Carrier) (pa : Option Path)
    (te : Tension) (dr : Quad Drum) (wi : Wind) (bu : Bus) (pe : Nat) (es : Bool) (ha : Hands) (pd : List Instr) :
    (State.mk st zs rb ms q k pa te dr wi bu (s.told ns).rig (s.told ns).safety pe es ha pd) =
      State.told (State.mk st zs rb ms q k pa te dr wi bu s.rig s.safety pe es ha pd) ns := rfl

@[simp] theorem modeNotice_told (s : State) (reason : ModeReason) (m : Mode) (q : Option EndReason) :
    s.modeNotice reason m q = s.told [modeNews reason s.carrier m q] := rfl

/-- A change of mode is the new carrier record and its MODE notice. -/
@[simp] theorem changeMode_told (s : State) (m : Mode) (reason : ModeReason) (q : Option EndReason) :
    s.changeMode m reason q =
      State.told { s with carrier := s.carrier.toMode m } [modeNews reason (s.carrier.toMode m) s.carrier.mode q] := rfl

/-! ## The taking of a request (R169) -/

/-- The owner takes the request, and its meaning acts on the part as the taking leaves it. -/
theorem take_of_takes (s : State) (p : Port) (tag : Byte) (c : Instr) (owner : State → State) (h : s.takes p c = true) :
    s.take p tag c owner = owner (s.served p c [] []) := by
  rw [State.take, if_pos h, arrive_served]

/-- A request that its owner does not take is turned away, whatever its meaning. -/
theorem take_of_not_takes (s : State) (p : Port) (tag : Byte) (c : Instr) (owner : State → State)
    (h : s.takes p c = false) : s.take p tag c owner = s.turnAway p tag c := by
  rw [State.take, if_neg (by simp [h])]

/-- What turning a request away can do: its frame waits, it is discarded, or it is answered BUSY. -/
theorem turnAway_cases (s : State) (p : Port) (tag : Byte) (c : Instr) :
    s.turnAway p tag c = s ∨
      s.turnAway p tag c = s.setPort p { s.port p with
        completed := (s.port p).completed ++ ((encodeRequest c).map Prod.snd).toList } ∨
      ∃ v, (s.port p).service = some v ∧ (s.port p).passed = none ∧ (s.port p).answers.length < Config.maxAnswers ∧
        s.turnAway p tag c = s.close p tag .busy v.work.kind 0 := by
  unfold State.turnAway
  by_cases h : ((s.port p).passed.isSome || !(s.port p).completed.isEmpty) = true
  · exact .inr (.inl (if_pos h))
  · rw [if_neg h]
    by_cases g : Config.maxAnswers ≤ (s.port p).answers.length
    · exact .inl (if_pos g)
    · rw [if_neg g]
      simp only [Bool.or_eq_true, not_or, Option.isSome_iff_ne_none, ne_eq, not_not] at h
      cases e : (s.port p).service with
      | none => exact .inl rfl
      | some v => exact .inr (.inr ⟨v, rfl, h.1, Nat.lt_of_not_le g, rfl⟩)

/-- Every request is taken or turned away at its port, by its own owner's meaning. -/
theorem exec_request (c : Instr) (p : Port) (f : RawFrame) (h : encodeRequest c = some (p, f)) :
    ∃ owner : State → State, ∀ s, exec c s = .next (s.take p f.tag c owner) := by
  cases c <;> simp only [encodeRequest, Option.some.injEq, Prod.mk.injEq, reduceCtorEq] at h <;>
    obtain ⟨rfl, rfl⟩ := h <;> exact ⟨_, fun _ => rfl⟩

/-! ## Listings and checks entering service -/

theorem serve_eq (s : State) (p : Port) (tag : Byte) (work : Work) :
    s.serve p tag work = s.setPort p { s.port p with service := some ⟨work, tag, 0⟩ } := rfl

/-! ## Hand-offs -/

@[simp] theorem handFault_eq (s : State) (c : Cause) (w : Option Winch) : s.handFault c w = { s with hands := { s.hands with faults := s.hands.faults ++ [⟨c, w⟩] } } := rfl

@[simp] theorem handTravel_eq (s : State) (h : TravelHand) : s.handTravel h = { s with hands := { s.hands with travel := s.hands.travel ++ [h] } } := rfl

@[simp] theorem handMarkReport_eq (s : State) (r : MarkReport) : s.handMarkReport r = { s with hands := { s.hands with markReports := s.hands.markReports ++ [r] } } := rfl

@[simp] theorem handRaise_eq (s : State) (r : Raise) : s.handRaise r = { s with hands := { s.hands with raises := s.hands.raises ++ [r] } } := rfl

@[simp] theorem handFreeze_eq (s : State) : s.handFreeze = { s with hands := { s.hands with freeze := true } } := rfl

@[simp] theorem handWindChange_eq (s : State) (b : Bool) : s.handWindChange b = { s with hands := { s.hands with windChanges := s.hands.windChanges ++ [b] } } := rfl

@[simp] theorem handEnd_eq (s : State) (r : EndReason) :
    s.handEnd r = { s with
      queue := { s.queue with travelFlag := false }
      hands := { s.hands with ends := s.hands.ends ++ [⟨s.queue.lastBegun, r⟩] } } := rfl

@[simp] theorem handChanges_nil (s : State) : s.handChanges [] = s := rfl

@[simp] theorem handChanges_cons (s : State) (n : Nat) (ns : List Nat) :
    s.handChanges (n :: ns) = { s with hands := { s.hands with changes := s.hands.changes ++ [n :: ns] } } := rfl

/-! ## Nothing stands -/

theorem settleMarks_none (s : State) (h : s.hands.changes = []) : settleMarks s = s := by simp [settleMarks, h]

theorem dueReports_none : ∀ rs : List MarkReport, rs.any MarkReport.retires = false → dueReports rs = []
  | [], _ => rfl
  | r :: rest, h => by rw [dueReports, if_neg (by simp only [h]; decide)]

theorem queueReady_none (s : State) (h : s.marksSettled = true) : queueReady s = s := by
  simp only [State.marksSettled, Bool.and_eq_true, List.isEmpty_iff, Bool.not_eq_true'] at h
  rw [queueReady, settleMarks_none s h.1]
  simp only [dueReports_none _ h.2, List.foldl_nil]

theorem dueRaises_none : ∀ rs : List Raise, .entry ∉ rs → dueRaises rs = []
  | [], _ => rfl
  | r :: rest, h => by rw [dueRaises, if_neg (by simpa using h)]

/-- No raise of an entry stands: the expiry takes none. -/
theorem expiryReady_none (s : State) (h : s.carrier.mode = .halted .stopped → .entry ∉ s.hands.raises) :
    expiryReady s = s := by
  unfold expiryReady; split <;> first | rfl | simp [dueRaises_none _ (h ‹_›)]

/-- The raise of an entry stands: the oldest raise is taken, and the expiry goes on from there. -/
theorem expiryReady_some (s : State) (m : s.carrier.mode = .halted .stopped) (h : .entry ∈ s.hands.raises) :
    expiryReady s = expiryReady (takeRaise s) := by
  cases e : s.hands.raises with
  | nil => simp [e] at h
  | cons r rest =>
      have d : dueRaises (r :: rest) = r :: dueRaises rest := by rw [dueRaises, if_pos (by simpa [e] using h)]
      have t : (takeRaise s).carrier.mode = .halted .stopped ∧ (takeRaise s).hands.raises = rest := by
        simp only [takeRaise, e, State.rigged, m, raiseStopNow]
        split <;> exact ⟨m, rfl⟩
      simp only [expiryReady, m, t.1, t.2, e, d, List.foldl_cons]

theorem takeCarrierResult_none (s : State) (h : s.hands.stepCarrier = none) : takeCarrierResult s = s := by
  unfold takeCarrierResult; rw [h]

theorem carrierReady_none (s : State) (h : s.hands.stepCarrier = none) : carrierReady s = s := by
  unfold carrierReady; split <;> first | rfl | exact takeCarrierResult_none s h

/-- In HALTED/STOPPING and while OFFLINE nothing is taken first (R110). -/
theorem carrierReady_settled (s : State) (h : s.carrierSettled) : carrierReady s = s := by
  obtain h | h | h := h
  · exact carrierReady_none s h
  · simp [carrierReady, h]
  · simp [carrierReady, h]

/-- Outside HALTED/STOPPING, taking a step result stores its flag and ages the stick, and does nothing else (R90). -/
theorem carrierReady_some (s : State) (r : StepResult) (h : s.hands.stepCarrier = some r)
    (rig : s.carrier.mode ≠ .offline) (stop : s.carrier.mode ≠ .halted .stopping) :
    carrierReady s = { s with
      carrier := { s.carrier with lastAtRest := r.atRest, steerAge := min (s.carrier.steerAge + 1) Config.steerLife }
      hands := { s.hands with stepCarrier := none } } := by
  have g : carrierReady s = takeCarrierResult s := by
    unfold carrierReady; split <;> first | rfl | exact absurd ‹_› rig | exact absurd ‹_› stop
  rw [g]; unfold takeCarrierResult; rw [h]
  simp [State.rigged, rig, stop, carrierStep]

theorem takeZoneResult_none (s : State) (h : s.hands.stepZone = none) : takeZoneResult s = s := by
  unfold takeZoneResult; rw [h]

theorem zoneReady_none (s : State) (h : s.zonesSettled = true) : zoneReady s = s := by
  simp [State.zonesSettled] at h
  rw [zoneReady, settleMarks_none s h.1, takeZoneResult_none s h.2, settleMarks_none s h.1]

theorem settleStep_none (s : State) (h : s.stepSettled = true) : settleStep s = s := by
  simp [State.stepSettled] at h
  obtain ⟨⟨⟨⟨⟨h1, h2⟩, h3⟩, h4⟩, h5⟩, h6⟩ := h
  have a : takeWrites s = s := by simp [takeWrites, h2]
  have b : takeQueueResult s = s := by unfold takeQueueResult; rw [h4]
  have c : takeCarrierResult s = s := takeCarrierResult_none s h5
  have d : takeDrumResult s = s := by unfold takeDrumResult; rw [h6]
  rw [settleStep, a, zoneReady_none s (by simp [State.zonesSettled, h1, h3]), b, c, d]

/-! ## What an event of the queue leaves -/

@[simp] theorem queued_entries (s : State) (q : MoveQueue) (h : Hands) (es : List Entry) (ends : Option EndReason) :
    (s.queued q h es ends).queue.entries = es := rfl

@[simp] theorem queued_flag (s : State) (q : MoveQueue) (h : Hands) (es : List Entry) (ends : Option EndReason) :
    (s.queued q h es ends).queue.travelFlag = (q.travelFlag && ends.isNone) := rfl

@[simp] theorem queued_lastBegun (s : State) (q : MoveQueue) (h : Hands) (es : List Entry) (ends : Option EndReason) :
    (s.queued q h es ends).queue.lastBegun = q.lastBegun := rfl

@[simp] theorem queued_ends (s : State) (q : MoveQueue) (h : Hands) (es : List Entry) (ends : Option EndReason) :
    (s.queued q h es ends).hands.ends = h.ends ++ ends.toList.map (fun reason => ⟨q.lastBegun, reason⟩) := rfl

@[simp] theorem queued_zones (s : State) (q : MoveQueue) (h : Hands) (es : List Entry) (ends : Option EndReason) :
    (s.queued q h es ends).zones = s.zones := rfl

@[simp] theorem queued_marks (s : State) (q : MoveQueue) (h : Hands) (es : List Entry) (ends : Option EndReason) :
    (s.queued q h es ends).marks = s.marks := rfl

@[simp] theorem queued_carrier (s : State) (q : MoveQueue) (h : Hands) (es : List Entry) (ends : Option EndReason) :
    (s.queued q h es ends).carrier = s.carrier := rfl

@[simp] theorem queued_path (s : State) (q : MoveQueue) (h : Hands) (es : List Entry) (ends : Option EndReason) :
    (s.queued q h es ends).path = s.path := rfl

/-! ## Fields of frames -/

@[simp] theorem packed_nil : packed [] = [] := rfl

@[simp] theorem packed_cons (f : Nat × Int) (fs : Fields) : packed (f :: fs) = bytesOf f.1 f.2 ++ packed fs := rfl

@[simp] theorem packed_append (fs gs : Fields) : packed (fs ++ gs) = packed fs ++ packed gs := by
  simp [packed, List.flatMap_append]

@[simp] theorem bytesOf_length (k : Nat) (v : Int) : (bytesOf k v).length = k := by simp [bytesOf]

/-! ## Things of a kind -/

theorem quad_get_set {α : Type} (q : Quad α) (w v : Winch) (a : α) :
    (q.set w a).get v = if v = w then a else q.get v := by
  revert w v; intro w v; fin_cases w <;> fin_cases v <;> rfl

theorem oct_get_set {α : Type} (q : Oct α) (l k : Lane) (a : α) : (q.set l a).get k = if k = l then a else q.get k := by
  revert l k; intro l k; fin_cases l <;> fin_cases k <;> rfl

@[simp] theorem quad_get_map {α β : Type} (q : Quad α) (f : α → β) (w : Winch) : (q.map f).get w = f (q.get w) := by
  revert w; intro w; fin_cases w <;> rfl

end Sys2Proof.Machine
end

