-- ==== Sys2Proof/Laws/Tables.lean ====
section
/-! SUPPORT. What the operations on the zone and mark tables, the integer searches and the box tests can do. -/

namespace Sys2Proof.Laws

open Sys2Proof.Machine

/-! ## Searches -/

/-- A search from a number that passes to one that fails ends where the test turns. -/
theorem greatest_spec (passes : Nat → Bool) (bits r : Nat)
    (start : passes r = true) (stop : passes (r + 2 ^ bits) = false) :
    passes (greatest passes bits r) = true ∧ passes (greatest passes bits r + 1) = false ∧ r ≤ greatest passes bits r := by
  induction bits generalizing r with
  | zero => exact ⟨start, by simpa [greatest] using stop, le_rfl⟩
  | succ k ih =>
    have half : r + 2 ^ k + 2 ^ k = r + 2 ^ (k + 1) := by rw [pow_succ]; omega
    unfold greatest
    split
    next h =>
      obtain ⟨h1, h2, h3⟩ := ih (r + 2 ^ k) h (by rw [half]; exact stop)
      exact ⟨h1, h2, le_trans (Nat.le_add_right _ _) h3⟩
    next h => exact ih r start (by simpa using h)

theorem floorSqrt_spec (n : Nat) : floorSqrt n * floorSqrt n ≤ n ∧ n < (floorSqrt n + 1) * (floorSqrt n + 1) := by
  have big : n < 2 ^ (n.log2 / 2 + 1) * 2 ^ (n.log2 / 2 + 1) := by
    rw [← pow_add]
    exact lt_of_lt_of_le Nat.lt_log2_self (Nat.pow_le_pow_right (by omega) (by omega))
  obtain ⟨h1, h2, -⟩ := greatest_spec (fun r => decide (r * r ≤ n)) (n.log2 / 2 + 1) 0 (by simp) (by simpa using big)
  simp only [decide_eq_true_eq, decide_eq_false_iff_not, not_le] at h1 h2
  exact ⟨h1, h2⟩

theorem ceilSqrt_spec (n : Nat) : n ≤ ceilSqrt n * ceilSqrt n ∧ (ceilSqrt n = 0 ∨ (ceilSqrt n - 1) * (ceilSqrt n - 1) < n) := by
  obtain ⟨h1, h2⟩ := floorSqrt_spec n
  unfold ceilSqrt
  dsimp only
  split
  next h =>
    refine ⟨h.ge, ?_⟩
    rcases Nat.eq_zero_or_pos (floorSqrt n) with hz | hz
    · exact .inl hz
    · exact .inr (lt_of_lt_of_le (Nat.mul_lt_mul_of_lt_of_le (by omega) (by omega) hz) h1)
  next h => exact ⟨le_of_lt h2, .inr (by simpa using lt_of_le_of_ne h1 h)⟩

/-! ## Tables in ascending number -/

theorem mem_insertZone (z y : Zone) (zones : List Zone) : y ∈ insertZone z zones ↔ y = z ∨ y ∈ zones := by
  induction zones with
  | nil => simp [insertZone]
  | cons x rest ih =>
    unfold insertZone
    split
    · simp
    · simp [ih]; tauto

/-- A record with a number that no other holds takes its place. -/
theorem insertZone_sorted (z : Zone) (zones : List Zone) (h : zones.Pairwise (fun a b => a.number < b.number))
    (fresh : ∀ y ∈ zones, y.number ≠ z.number) : (insertZone z zones).Pairwise (fun a b => a.number < b.number) := by
  induction zones with
  | nil => simp [insertZone]
  | cons x rest ih =>
    rw [List.pairwise_cons] at h
    unfold insertZone
    split
    next hlt =>
      refine List.pairwise_cons.2 ⟨fun y hy => ?_, List.pairwise_cons.2 h⟩
      rcases List.mem_cons.1 hy with rfl | hy
      · exact hlt
      · exact lt_trans hlt (h.1 y hy)
    next hge =>
      refine List.pairwise_cons.2 ⟨fun y hy => ?_, ih h.2 (fun y hy => fresh y (by simp [hy]))⟩
      rcases (mem_insertZone z y rest).1 hy with rfl | hy
      · have := fresh x (by simp); omega
      · exact h.1 y hy

theorem mem_removeZone (n : Nat) (y : Zone) (zones : List Zone) :
    y ∈ removeZone n zones ↔ y ∈ zones ∧ y.number ≠ n := by simp [removeZone]

theorem removeZone_sorted (n : Nat) (zones : List Zone) (h : zones.Pairwise (fun a b => a.number < b.number)) :
    (removeZone n zones).Pairwise (fun a b => a.number < b.number) := h.filter _

theorem replaceZone_sorted (z : Zone) (zones : List Zone) (h : zones.Pairwise (fun a b => a.number < b.number)) :
    (replaceZone z zones).Pairwise (fun a b => a.number < b.number) := by
  refine List.pairwise_map.2 (h.imp ?_)
  intro a b hab
  split <;> split <;> simp_all

/-- In a table in ascending number a lookup finds the one record of that number. -/
theorem zoneAt_eq_some (zones : List Zone) (h : zones.Pairwise (fun a b => a.number < b.number)) (n : Nat) (z : Zone) :
    zoneAt zones n = some z ↔ z ∈ zones ∧ z.number = n := by
  constructor
  · intro hz
    exact ⟨List.mem_of_find?_eq_some hz, by simpa using List.find?_some hz⟩
  · rintro ⟨hz, rfl⟩
    induction zones with
    | nil => simp at hz
    | cons x rest ih =>
      rw [List.pairwise_cons] at h
      rcases List.mem_cons.1 hz with rfl | hz
      · simp [zoneAt]
      · have hne : x.number ≠ z.number := ne_of_lt (h.1 z hz)
        simp only [zoneAt, List.find?_cons, beq_eq_false_iff_ne.2 hne]
        exact ih h.2 hz

/-- A stored mark is in the table; of the others, those with another number. -/
theorem mem_insertMark (m y : Mark) (marks : List Mark) (h : marks.Pairwise (fun a b => a.number < b.number)) :
    y ∈ insertMark m marks ↔ y = m ∨ (y ∈ marks ∧ y.number ≠ m.number) := by
  induction marks with
  | nil => simp [insertMark]
  | cons x rest ih =>
    rw [List.pairwise_cons] at h
    unfold insertMark
    split
    next hlt =>
      have : ∀ y ∈ x :: rest, y.number ≠ m.number := by
        intro y hy
        rcases List.mem_cons.1 hy with rfl | hy
        · omega
        · have := h.1 y hy; omega
      constructor
      · intro hy
        rcases List.mem_cons.1 hy with rfl | hy
        · exact .inl rfl
        · exact .inr ⟨hy, this y hy⟩
      · rintro (rfl | ⟨hy, -⟩)
        · simp
        · simp [hy]
    next hge =>
      split
      next heq =>
        constructor
        · intro hy
          rcases List.mem_cons.1 hy with rfl | hy
          · exact .inl rfl
          · exact .inr ⟨by simp [hy], by have := h.1 y hy; omega⟩
        · rintro (rfl | ⟨hy, hne⟩)
          · simp
          · rcases List.mem_cons.1 hy with rfl | hy
            · omega
            · simp [hy]
      next hne =>
        rw [List.mem_cons, ih h.2, List.mem_cons]
        constructor
        · rintro (rfl | rfl | ⟨hy, hn⟩)
          · exact .inr ⟨.inl rfl, by omega⟩
          · exact .inl rfl
          · exact .inr ⟨.inr hy, hn⟩
        · rintro (rfl | ⟨rfl | hy, hn⟩)
          · exact .inr (.inl rfl)
          · exact .inl rfl
          · exact .inr (.inr ⟨hy, hn⟩)

/-! ## Boxes -/

theorem contains_trans (a b c : Box) (h : a.contains b = true) (h' : b.contains c = true) : a.contains c = true := by
  simp only [Box.contains, Bool.and_eq_true, decide_eq_true_eq] at *
  omega

/-- What a box meets, every box around it meets. -/
theorem meets_of_contains (a b z : Box) (h : a.contains b = true) (h' : z.meets b = true) : z.meets a = true := by
  simp only [Box.contains, Box.meets, Bool.and_eq_true, decide_eq_true_eq] at *
  omega

/-- A box within one that meets no ACTIVE keep-out meets none. -/
theorem clearOfKeepOuts_mono (zones : List Zone) (a b : Box) (h : a.contains b = true)
    (h' : clearOfKeepOuts zones a = true) : clearOfKeepOuts zones b = true := by
  simp only [clearOfKeepOuts, List.all_eq_true, Bool.not_eq_true', Bool.and_eq_false_iff] at *
  intro z hz
  rcases h' z hz with hk | hm
  · exact .inl hk
  · refine .inr (Bool.eq_false_iff.2 fun hb => ?_)
    rw [meets_of_contains a b z.expanded h hb] at hm
    exact Bool.noConfusion hm

end Sys2Proof.Laws
end

