-- ==== Sys2Proof/Tests/Slice0.lean ====
section
/-! SUPPORT. The refusals of WellFormed, the manual's worked figures, and for each statement with hypotheses a witness:
concrete states and operands that meet the hypotheses of each of its clauses, at the ends of their ranges. -/

namespace Sys2Proof.Tests

open Sys2Proof.Machine

-- One proof after another: many kernel evaluations at once take a thread each.
set_option Elab.async false

/-! ## WellFormed refuses each kind of ill-formed command -/

theorem test_zoneLapse_number : Instr.wellFormed (.zoneLapse 0) = false ∧ Instr.wellFormed (.zoneLapse 49) = false := by
  decide

theorem test_canFrame_length : Instr.wellFormed (.statusReceived (.standard 0 (List.replicate 9 0))) = false ∧
    Instr.wellFormed (.statusReceived (.extended 0 (List.replicate 9 0))) = false := by decide

theorem test_u8_fields : Instr.wellFormed (.set .rig 0 256 0 ⟨0, 0, 0⟩) = false ∧
    Instr.wellFormed (.get .rig 0 0 256) = false ∧ Instr.wellFormed (.laneCheck .rig 0 256) = false ∧
    Instr.wellFormed (.zoneRetire .rig 0 256) = false ∧ Instr.wellFormed (.zoneLock .rig 0 256) = false ∧
    Instr.wellFormed (.zoneUnlock .rig 0 256) = false ∧ Instr.wellFormed (.zoneFix .rig 0 256) = false ∧
    Instr.wellFormed (.zoneRead .rig 0 256) = false ∧ Instr.wellFormed (.zoneList .rig 0 256 0) = false ∧
    Instr.wellFormed (.markRetire .rig 0 256) = false ∧ Instr.wellFormed (.markRead .rig 0 256) = false ∧
    Instr.wellFormed (.markList .rig 0 256) = false := by decide

theorem test_wide_fields : Instr.wellFormed (.moveCancel .rig 0 65536) = false ∧
    Instr.wellFormed (.steer .rig 0 ⟨0, 32768, 0⟩) = false ∧
    Instr.wellFormed (.rigCommit .rig 0 ⟨0, 0, -2147483649⟩) = false := by decide

theorem test_bodies : Instr.wellFormed (.zoneAdd .rig 0 ⟨0, ⟨0, 0, 0⟩, ⟨0, 0, 0⟩, 65536, 0⟩) = false ∧
    Instr.wellFormed (.zoneEdit .rig 0 ⟨0, ⟨0, 0, 0⟩, ⟨0, 0, 0⟩, 0, 256, 0⟩) = false ∧
    Instr.wellFormed (.markSet .rig 0 ⟨0, ⟨0, 0, 0⟩, 0, List.replicate 225 0⟩) = false ∧
    Instr.wellFormed (.markHere .rig 0 ⟨0, 0, List.replicate 237 0⟩) = false ∧
    Instr.wellFormed (.moveAdd .rig 0 ⟨0, 0, ⟨0, 0, 0⟩, 0, 0, 65536, 0⟩) = false := by decide +kernel

/-! ## States -/

/-- The next state, if there is one. -/
def nextOf (o : Result) : Option State :=
  match o with
  | .next t => some t
  | _ => none

/-- What `f` reads in the state after command `c`. -/
def after {α : Type} (c : Instr) (s : State) (f : State → α) : Option α := (nextOf (exec c s)).map f

theorem next_of_isSome {o : Result} (h : (nextOf o).isSome = true) : ∃ t, o = .next t := by
  cases o with
  | next t => exact ⟨t, rfl⟩
  | fault _ => simp [nextOf] at h
  | refused _ => simp [nextOf] at h

def origin : Vec3 := ⟨0, 0, 0⟩

/-- Table 1-1, and the rates of the worked examples. -/
def rigSettings : Settings := { Settings.reset with
  anchor := ⟨⟨-70000, -50000, 45000⟩, ⟨70000, -50000, 45000⟩, ⟨70000, 50000, 45000⟩, ⟨-70000, 50000, 45000⟩⟩
  speedCap := 8000, accelRate := 20, stopRate := 40 }

/-- Zone 1 of section 1.3. -/
def envelope : Zone :=
  ⟨1, .keepIn, .safety, .active, .fixed, ⟨-52000, -34000, 3000⟩, ⟨52000, 34000, 40000⟩, 1000, none⟩

/-- Zone 7 of section 2.12's example. -/
def stand : Zone := ⟨7, .keepOut, .rig, .active, .opened, ⟨11000, -3000, 0⟩, ⟨14000, 12000, 30000⟩, 500, none⟩

/-- A lane that is mapped nowhere, in the state given. -/
def inLane (st : LaneState) : Oct LaneRec := .all { LaneRec.reset with state := st, watch := true }

/-- OFFLINE with the settings and zones of the examples. -/
def offline : State := { State.reset with settings := rigSettings, zones := [envelope, stand] }

/-- HOLD at rest at the centre spot, 20 m up. -/
def holding : State := { offline with
  carrier := { Carrier.reset with mode := .hold }
  path := some ⟨⟨0, 0, 20000000⟩, origin, ⟨⟨0, 0, 20000000⟩, ⟨0, 0, 20000000⟩⟩, .atRest, .all 0, 0, 8000, .setting⟩
  refBox := some ⟨⟨0, 0, 20000000⟩, ⟨0, 0, 20000000⟩⟩ }

/-- An entry towards a point. -/
def shot : Entry := {
  id := 1, serial := 1, target := .point ⟨30000, 5000, 20000⟩, markRetired := false, speedCap := none, tolerance := 20
  dwellMs := 0, dwell := 0, release := .immediate, state := .queued, bound := none, lookAhead := .unchecked, eta := 0
  remaining := 0, stall := 0 }

def running : Entry := { shot with state := .running, bound := some ⟨⟨30000000, 5000000, 20000000⟩, none⟩ }

def queueOf (es : List Entry) (flag : Bool) : MoveQueue := ⟨es, 9, flag, 1, 9⟩

def inMode (m : Mode) (s : State) : State := { s with carrier := { s.carrier with mode := m } }

/-- The present state of section 6.13's worked step. -/
def flying : State := { holding with
  carrier := { Carrier.reset with mode := .travel, begun := 1 }
  path := some ⟨⟨10000000, 5000000, 20000000⟩, ⟨3000, 0, 0⟩,
    ⟨⟨10000000, 5000000, 20000000⟩, ⟨10444000, 5000000, 20000000⟩⟩, .accepted, .all 0, 0, 6000, .wind⟩
  refBox := some ⟨⟨10000000, 5000000, 20000000⟩, ⟨10444000, 5000000, 20000000⟩⟩
  wind := { Wind.reset with cap := 6000 }, tension := { Tension.reset with cap := 6049 }
  queue := queueOf [running] true }

def restAt (arrival : Bool) (verdict : Verdict) (atRest : Bool) : StepResult :=
  ⟨⟨0, 0, 20000000⟩, origin, ⟨⟨0, 0, 20000000⟩, ⟨0, 0, 20000000⟩⟩, verdict, atRest, arrival⟩

/-! ## The manual's worked figures -/

/-- Section 1.2 and Table 6-6. -/
theorem test_lineLength : lineLength ⟨-70000, -50000, 45000⟩ ⟨0, 0, 5000000⟩ = 94868330 ∧
    lineLength ⟨-70000, -50000, 45000⟩ ⟨10012080, 5000000, 20000000⟩ = 100259328 := by decide +kernel

/-- Section 1.3. -/
theorem test_lineRange : lineRangeAt ⟨-70000, -50000, 45000⟩ 1000 250000 envelope.shrunk = true ∧
    lineRangeAt ⟨-70000, -50000, 45000⟩ 1000 150000 envelope.shrunk = false := by decide +kernel

/-- Table 6-3. -/
theorem test_stopDistance : [20, 40, 60, 1820, 2980, 3000, 3020, 8000].map (stopDistance 40) =
    [0, 0, 80, 162000, 438080, 444000, 450000, 3184000] := by decide +kernel

/-- Section 6.4: the steer vector (6,000; 6,000; 0) under a cap of 8,000. -/
theorem test_limitMagnitude : limitMagnitude 8000 ⟨6000, 6000, 0⟩ = ⟨5656, 5656, 0⟩ := by decide +kernel

/-- Section 4.3: the route that meets zone 7. -/
theorem test_slab : segmentMeets ⟨20000000, 20000000, 20000000⟩ ⟨0, 0, 20000000⟩ stand.expanded = true := by
  decide +kernel

/-- Table 4-2. -/
theorem test_eta : etaOf rigSettings ⟨0, 0, 0⟩ ⟨0, 20000000, 0⟩ none none = 4096 ∧
    etaOf rigSettings ⟨0, 0, 20000000⟩ ⟨10200000, 4000000, 15000000⟩ none (some 3000) = 4612 ∧
    etaOf rigSettings ⟨0, 0, 0⟩ ⟨1000000, 0, 0⟩ none none = 892 := by decide +kernel

/-- R167: the check value. -/
theorem test_crc : crc [0x31, 0x32, 0x33, 0x34, 0x35, 0x36, 0x37, 0x38, 0x39] = 0x29B1 := by decide +kernel

/-- Section 6.13, Tables 6-5 and 6-6. -/
theorem test_servoStep : after .servoStep flying State.path =
    some (some ⟨⟨10012080, 5000000, 20000000⟩, ⟨3020, 0, 0⟩,
      ⟨⟨10000000, 5000000, 20000000⟩, ⟨10462080, 5000000, 20000000⟩⟩, .accepted,
      ⟨100259328, 85138420, 79047774, 95141647⟩, 1, 6000, .wind⟩) := by decide +kernel

/-- Section 7.2: twelve words 0x9C40 with gain 4 and scale 640. -/
theorem test_laneOutput :
    scaleOutput 640 (filterOutput (List.replicate 12 341) (List.replicate 12 (gainedValue 4 (convertWord .offset 0x9C40))))
      = 22577 := by decide +kernel

/-- Table 8-4, ticks 2 and 4. -/
theorem test_wind :
    let s (pulses : Nat) : State := { flying with
      settings := { rigSettings with windCmPerPulse := 50 }, wind := { Wind.reset with pulses := pulses } }
    after .windSecondTick (s 19) State.wind = some ⟨0, 950, 6000, false⟩ ∧
    after .windSecondTick (s 28) State.wind = some ⟨0, 1400, 500, true⟩ := by decide +kernel

/-- Table 2-4, first row: zone 8 is DEFERRED. -/
theorem test_zoneAdd_deferred :
    let far (n : Nat) : Zone := { stand with number := n, least := ⟨40000, 0, 0⟩, greatest := ⟨50000, 0, 0⟩ }
    after (.zoneAdd .rig 5 ⟨0, ⟨10300, 2000, 0⟩, ⟨12000, 9000, 25000⟩, 200, 90⟩)
      { flying with
        zones := [envelope, far 2, far 3, far 4, far 5, far 6, stand]
        refBox := some ⟨⟨10000000, 5000000, 20000000⟩, ⟨10462080, 5000000, 20000000⟩⟩ }
      (fun s => (s.rig.answers, s.zones.getLast?))
    = some ([closing 5 .deferred 8 0],
        some ⟨8, .keepOut, .rig, .pending, .opened, ⟨10300, 2000, 0⟩, ⟨12000, 9000, 25000⟩, 200, some 90⟩) := by
  decide +kernel

/-- Section 11.8's example: a MOVE notice with a bound point has 55 bytes. -/
theorem test_moveNotice : ((Notice.move .dropped (some (.routeBlocked 8 1)) 0
    { shot with id := 43, state := .armed, bound := some ⟨⟨20000000, 0, 20000000⟩, none⟩ } none).body).length = 55 := by
  decide +kernel


/-! ## Witnesses: the machine and its invariants -/

theorem witness_StepRunsFrontCommand : ({ holding with pending := [.freeze, .servoStep] } : State).pending =
    .freeze :: [.servoStep] := rfl

theorem witness_EmptyQueueRunsTimebase : flying.pending = [] ∧ standing flying = [] ∧ flying.periods ≠ 249 ∧
    standing { flying with hands := { Hands.none with freeze := true } } ≠ [] ∧
    standing { flying with periods := 248 } = [] ∧ standing { flying with periods := 249 } = [] := by decide +kernel

def stepping : State := { flying with pending := [.servoStep] }

theorem stepping_steps : ∃ t, step stepping = .next t := next_of_isSome (by decide +kernel)

theorem witness_StoppingBoxStaysClear : stepping.boxClear ∧ ∃ t, step stepping = .next t := by
  refine ⟨⟨by unfold State.pathAgrees; decide +kernel, fun p h => ?_⟩, stepping_steps⟩
  obtain rfl := Option.some.inj h
  exact ⟨by decide +kernel, by decide +kernel, rfl⟩

/-- `stepping` with the line lengths of its pose. -/
def cruising : State := { stepping with
  path := stepping.path.map (fun p => { p with lengths := lineLengths rigSettings.anchor p.pose }) }

theorem cruising_clear : cruising.boxClear := by
  refine ⟨by unfold State.pathAgrees; decide +kernel, fun p h => ?_⟩
  obtain rfl := Option.some.inj h
  exact ⟨by decide +kernel, by decide +kernel, rfl⟩

theorem cruising_kept : cruising.boxKept := by
  intro p h _
  obtain rfl := Option.some.inj h
  exact ⟨envelope, by decide +kernel, rfl, .inl rfl, by decide +kernel⟩

theorem cruising_legal : cruising.tablesLegal := by unfold State.tablesLegal; decide +kernel

theorem witness_MovingBoxLiesInKeepIn : cruising.boxClear ∧ cruising.tablesLegal ∧ cruising.boxKept ∧
    cruising.path.map Path.vel = some ⟨3000, 0, 0⟩ ∧ ∃ t, step cruising = .next t :=
  ⟨cruising_clear, cruising_legal, cruising_kept, rfl, next_of_isSome (by decide +kernel)⟩

theorem witness_LineLengthsStayInRange : cruising.boxClear ∧ cruising.tablesLegal ∧ cruising.boxKept ∧
    cruising.lengthsAgree ∧ ∃ t, step cruising = .next t := by
  refine ⟨cruising_clear, cruising_legal, cruising_kept, ⟨by decide +kernel, by decide +kernel, fun p h => ?_⟩,
    next_of_isSome (by decide +kernel)⟩
  obtain rfl := Option.some.inj h
  exact ⟨by decide +kernel, by decide +kernel⟩

theorem witness_SpeedStaysWithinCap : stepping.withinCap ∧ ∃ t, step stepping = .next t := by
  refine ⟨⟨by unfold State.pathAgrees; decide +kernel, by decide, fun p h => ?_⟩, stepping_steps⟩
  obtain rfl := Option.some.inj h
  decide +kernel

/-- A port at the end of its range: a listing in service, an ABORT passed and 3 answers waiting. -/
def crowded : State := { holding with
  rig := { PortRec.reset with
    service := some ⟨.queue 0, 2, 255⟩, passed := some (.abort .rig 1), answers := List.replicate 3 (closing 0 .ok 0 0) }
  pending := [.abort .rig 1] }

theorem crowded_agrees : crowded.portsAgree := by
  intro p; cases p
  · refine ⟨⟨fun c _ h => ?_, by decide⟩, fun c h => ?_⟩ <;> obtain rfl := Option.some.inj h <;> rfl
  · refine ⟨⟨fun _ h _ => ?_, by decide⟩, fun _ h => ?_⟩ <;> exact absurd h (by simp [crowded, holding, offline,
      State.port, State.reset, State.resetWith, PortRec.reset])

theorem witness_TablesAndMoveIdsStayLegal : stepping.tablesLegal ∧ stepping.idsDistinct ∧
    (∃ t, step stepping = .next t) ∧ crowded.portsAgree ∧ ∃ t, step crowded = .next t :=
  ⟨by unfold State.tablesLegal; decide +kernel, by unfold State.idsDistinct; decide +kernel, stepping_steps,
    crowded_agrees, next_of_isSome (by decide +kernel)⟩

/-- A halt with a cause, the wind hold set, and a report that escalates it. -/
def halting : State := { flying with
  carrier := { flying.carrier with
    mode := .halted .stopping, causes := [.request], first := some ⟨.request, none⟩, windMirror := true }
  queue := queueOf [shot] false
  hands := { Hands.none with faults := [⟨.tracking, some 2⟩] }, pending := [.faultReport] }

theorem witness_CarrierControlStaysConsistent : halting.stickAgrees ∧ halting.haltAgrees ∧ halting.windGrounds ∧
    ∃ t, step halting = .next t :=
  ⟨by unfold State.stickAgrees; decide +kernel, by unfold State.haltAgrees; decide +kernel,
    by unfold State.windGrounds; decide +kernel, next_of_isSome (by decide +kernel)⟩

theorem witness_QueueAndTravelStayInStep : stepping.queueAgrees ∧ ∃ t, step stepping = .next t := by
  refine ⟨⟨?_, ?_, ?_⟩, stepping_steps⟩
  · show ([1] : List Nat).Nodup ∧ (∀ e ∈ [running], e.serial < 9) ∧ _ ∧ _ ∧ _ ∧ (∀ e ∈ ([] : List Entry), _) ∧ True
    exact ⟨by decide, by decide, fun _ => rfl, rfl, rfl, by simp, trivial⟩
  · intro e he n hn
    obtain rfl : e = running := by simpa [stepping, flying, queueOf] using he
    simp [running, shot] at hn
  · unfold State.travelAgrees; decide +kernel

theorem witness_CountersStayInRange : stepping.countersInRange = true ∧ ∃ t, step stepping = .next t :=
  ⟨by decide +kernel, stepping_steps⟩

/-! ## Witnesses: rules over all commands -/

theorem witness_RigSettingsFrozenWhileRigged : holding.rigged = true ∧
    (∀ lines, Instr.set .safety 0 0x40 0 ⟨50, 0, 0⟩ ≠ .hardReset lines) ∧
    ∃ t, exec (.set .safety 0 0x40 0 ⟨50, 0, 0⟩) holding = .next t :=
  ⟨by decide +kernel, by simp, next_of_isSome (by decide +kernel)⟩

/-- Every lane mapped and GOOD with a valid output of 5,000 N, every drive BRAKED and heard of, and the drums scaled. -/
def tuned (s : State) : State := { s with
  settings := { s.settings with
    drumScale := .all 65536, lineSpeed := .all 9000
    laneMap := ⟨some ⟨0, .a⟩, some ⟨0, .b⟩, some ⟨1, .a⟩, some ⟨1, .b⟩, some ⟨2, .a⟩, some ⟨2, .b⟩, some ⟨3, .a⟩,
      some ⟨3, .b⟩⟩ }
  tension := { s.tension with
    lanes := .all ⟨.good, List.replicate 12 5000, 12, 5000, true, true, none⟩
    winches := .all ⟨5000, .pair, 0, 0, 5000, 5000⟩ }
  bus := { s.bus with drives := .all ⟨some 9, 0, some .braked, 0, 0, false⟩ } }

/-- HALTED/STOPPED on a request, with every condition gone. -/
def halted : State := { tuned holding with
  carrier := { holding.carrier with mode := .halted .stopped, causes := [.request], first := some ⟨.request, none⟩ } }

/-- The rig of section 1.5's example with a reach that passes. -/
def ready : State := tuned { offline with settings := { rigSettings with lenMax := .all 200000 } }

theorem witness_ModeAndPathChangeByTheirEvents :
    ready.rigged = false ∧ after (.rigCommit .rig 1 ⟨0, 0, 5000⟩) ready State.rigged = some true ∧
    holding.rigged = true ∧ after (.unrig .safety 1) holding State.rigged = some false ∧
    after (.clearHalt .safety 1) halted (fun s => s.carrier.mode) = some .hold ∧
    (after .servoStep flying State.path).isSome = true ∧ after .servoStep flying State.path ≠ some flying.path := by
  decide +kernel

theorem witness_FixedZoneStays : stepping.tablesLegal ∧ envelope ∈ stepping.zones ∧ envelope.lock = .fixed ∧
    envelope.lifetime = none ∧ envelope.state ≠ .overdue ∧ (∀ lines, Instr.zoneRetire .safety 0 1 ≠ .hardReset lines) ∧
    ∃ t, exec (.zoneRetire .safety 0 1) stepping = .next t :=
  ⟨by unfold State.tablesLegal; decide +kernel, by decide +kernel, rfl, rfl, by decide, by simp,
    next_of_isSome (by decide +kernel)⟩

/-- A port that holds nothing takes every request. -/
theorem fresh_takes (s : State) (p : Port) (c : Instr) (h : s.port p = PortRec.reset) : s.takes p c = true := by
  simp [State.takes, h, PortRec.reset]

/-- A step result for each taker, and the reports of the mark table with and without a retirement. -/
def pended (s : State) : State := { s with hands := { Hands.none with
  stepZone := some (restAt false .atRest true), stepCarrier := some (restAt false .atRest true)
  faults := [⟨.slack, some 0⟩], markReports := [.retired 63, .replaced 62] } }

theorem witness_EventsTakeStandingResultsFirst :
    ((∀ c, (pended holding).admits c) ∧
      isZoneEvent (.zoneRead .rig 0 48) = true ∧ isZoneEvent .zoneSecondTick = true ∧ (pended holding).hands.changes = [] ∧
      ∃ u v, exec .zoneStepResult (pended holding) = .next u ∧ exec .changeInForceReport u = .next v) ∧
    ((pended holding).readsStepResult (.park .rig 0) = true ∧ (pended holding).readsStepResult .faultReport = true ∧
      (pended holding).readsStepResult (.estopActive true) = true ∧ holding.carrier.mode ≠ .offline ∧
      holding.carrier.mode ≠ .halted .stopping ∧ ∃ u, exec .carrierStepResult (pended holding) = .next u) ∧
    ((pended holding).reachesQueue .cueEdge = true ∧
      (pended holding).hands.markReports = .retired 63 :: [.replaced 62] ∧
      ∃ u, exec .retirementReport (pended holding) = .next u) ∧
    (let s : State := { holding with hands := { Hands.none with markReports := [.replaced 62] } };
      s.marksSettled = true ∧ ∃ t, exec .cueEdge s = .next t) ∧
    (let s : State := { inMode .parked holding with hands := { Hands.none with markReports := [.retired 63, .replaced 62] } };
      s.admits (.unrig .safety 0) ∧ s.hands.stepCarrier = none ∧ s.carrier.mode = .parked ∧ s.hands.changes = [] ∧
        s.hands.markReports = .retired 63 :: [.replaced 62] ∧ ∃ u, exec .retirementReport s = .next u) ∧
    (let s : State := { holding with hands := { Hands.none with changes := [[7], [1]] } };
      isMarkRequest (.markRead .rig 0 63) = true ∧ s.reachesQueue .cueEdge = true ∧ s.rigged = true ∧ s.hands.writes = [] ∧
        s.hands.stepCarrier = none ∧ s.carrier.mode = .hold ∧ s.carrier.lastAtRest = true ∧ s.hands.changes ≠ [] ∧
        ∃ u, exec .changeInForceReport s = .next u) ∧
    (let s : State := { flying with hands := { Hands.none with writes := [⟨3, ⟨2, 0, false⟩⟩] } };
      s.rigged = true ∧ s.hands.writes ≠ [] ∧ ∃ u, exec .setpointWrite s = .next u) ∧
    ((pended holding).rigged = true ∧ (pended holding).hands.writes = [] ∧ (pended holding).stepSettled = false ∧
      ∃ z v q k d, exec .zoneStepResult (pended holding) = .next z ∧ exec .changeInForceReport z = .next v ∧
        exec .queueStepResult v = .next q ∧ exec .carrierStepResult q = .next k ∧ exec .drumStepResult k = .next d) := by
  obtain ⟨u, hu⟩ : ∃ u, exec .zoneStepResult (pended holding) = .next u := next_of_isSome (by decide +kernel)
  exact ⟨⟨fun c p _ => fresh_takes _ p c (by cases p <;> rfl), rfl, rfl, rfl, u, _, hu, rfl⟩,
    ⟨rfl, by decide +kernel, by decide +kernel, by decide, by decide, next_of_isSome (by decide +kernel)⟩,
    ⟨rfl, rfl, next_of_isSome (by decide +kernel)⟩, ⟨by decide +kernel, next_of_isSome (by decide +kernel)⟩,
    ⟨fun p _ => fresh_takes _ p _ (by cases p <;> rfl), rfl, rfl, rfl, rfl, next_of_isSome (by decide +kernel)⟩,
    ⟨rfl, rfl, rfl, rfl, rfl, rfl, rfl, by decide, next_of_isSome (by decide +kernel)⟩,
    ⟨rfl, by decide, next_of_isSome (by decide +kernel)⟩, rfl, rfl, by decide +kernel, u, _, _, _, _, hu, rfl, rfl, rfl, rfl⟩

/-- R18, R63: the retirement of the mark of the one entry reaches the queue before an UNRIG, which then removes none. -/
theorem test_unrig_takes_retirement :
    after (.unrig .safety 9)
      { inMode .parked holding with
        queue := queueOf [{ shot with target := .mark 63 }] false
        hands := { Hands.none with markReports := [.retired 63] } }
      (fun t => (t.hands.markReports, t.rig.notices.map (fun n => n.body.take 5))) =
        some ([], [[5, 4, 3, 0, 0], [8, 2, 0], [1, 2, 0, 0, 4]]) := by decide +kernel

/-- R90, R112: a servo step that finds the set-points and the result of the step before takes them first. -/
theorem test_step_follows_step :
    (after .servoStep flying id).bind (fun t => after .servoStep t (fun u =>
      (t.hands.writes.length, u.hands.writes.map (fun x => x.content.seq), u.bus.slots.toList.map (Option.map Setpoint.seq),
        u.refBox == t.path.map Path.box))) =
      (after .servoStep flying id).map (fun t => (4, List.replicate 4 (t.path.elim 0 Path.count + 1),
        List.replicate 4 (some (t.path.elim 0 Path.count)), true)) := by decide +kernel

/-! ## What the standing results decide (R87, R90, R96, R102, R121, R159) -/

/-- R90, R93: a STEER between two steps is read with age 0. -/
theorem test_steer_age : after (.steer .rig 0 ⟨100, 0, 0⟩)
    { pended holding with carrier := { holding.carrier with mode := .steer, steerAge := 7 } }
    (fun t => (t.carrier.steerAge, t.hands.stepCarrier)) = some (0, none) := by decide +kernel

/-- R96: a PARK is judged by the flag of the last step. -/
theorem test_park_moving :
    after (.park .rig 3) { holding with hands := { Hands.none with stepCarrier := some (restAt false .accepted false) } }
      (fun t => (t.carrier.mode, t.rig.answers)) = some (.hold, [closing 3 .notAtRest 0 0]) := by decide +kernel

/-- R102, R128: the result of the step before a halt ends no stop; the next step brakes. -/
theorem test_halt_brakes : after (.halt .rig 3) (pended holding)
    (fun t => (t.carrier.mode, t.hands.stepCarrier, after .servoStep t (fun u => u.path.map Path.verdict)))
      = some (.halted .stopping, none, some (some .braked)) := by decide +kernel

/-- R121: a keep-in whose lifetime ends is judged by the box of the last step. -/
theorem test_tick_sees_step : after .zoneSecondTick
    { holding with
      zones := [{ envelope with number := 4, lock := .opened, lifetime := some 1 }], refBox := some ⟨origin, origin⟩
      hands := { Hands.none with stepZone := some (restAt false .atRest true) } }
    (fun t => t.zones.map Zone.state) = some [.overdue] := by decide +kernel

/-- R159: a raise withdraws what is in the slots, and a set-point that is still to come fills its slot. -/
theorem test_raise_keeps_writes :
    let s : State := { flying with
      bus := { Bus.reset with slots := .all (some ⟨1, 0, false⟩) }
      hands := { Hands.none with writes := [⟨3, ⟨2, 0, false⟩⟩], raises := [.entry] } }
    (after .raiseStop s (fun t => (t.bus.slots, after .setpointWrite t (fun u => u.bus.slots.w3)))) =
      some (.all none, some (some ⟨2, 0, false⟩)) := by decide +kernel

/-- R87: the cue edge comes first, and the state change that stands is taken after it. -/
theorem test_edge_before_report : after .cueEdge
    { holding with hands := { Hands.none with markReports := [.changed [(63, .blocked)]] } }
    (fun t => t.hands.markReports) = some [.changed [(63, .blocked)]] := by decide +kernel

/-! ## Witnesses: arithmetic and geometry -/

/-- The least and the greatest rate and speed, and the two sides of u = b. A length of 0, one rounded down and one rounded
up, and bounds met with equality. -/
theorem witness_StoppingDistanceAndLineLengthAreExact : ((0 : Int) < 1 ∧ (0 : Int) ≤ 10000 ∧
      stopDistance 1 10000 = 199980000 ∧ (40 : Int) ≤ 40 ∧ stopDistance 40 40 = 0 ∧ (39 : Int) < 40 ∧
      stopDistance 40 39 = 0 ∧ (10000 : Int) ≤ 10001 ∧ (0 : Int) ≤ 39 ∧ (39 : Int) ≤ 10000) ∧
    lineLength ⟨0, 0, 0⟩ ⟨0, 0, 0⟩ = 0 ∧ lineLength ⟨0, 0, 0⟩ ⟨1, 1, 0⟩ = 1 ∧ lineLength ⟨0, 0, 0⟩ ⟨1, 1, 1⟩ = 2 ∧
    lineLength ⟨0, 0, 0⟩ ⟨3, 4, 0⟩ = 5 := by decide +kernel



theorem witness_LineRangeAndSlabTestsAreGeometric : envelope.shrunk.inhabited ∧ (0 : Int) ≤ 1000 ∧ (0 : Int) ≤ 250000 ∧
    stand.expanded.inhabited ∧ Box.inhabited ⟨⟨0, 0, 0⟩, ⟨0, 0, 0⟩⟩ ∧ (0 : Int) ≤ 0 := by
  unfold Box.inhabited; decide +kernel



/-- Each factor comes about; the least of the caps and of the ranges. -/
theorem witness_DesiredVelocityRespectsCaps :
    (effectiveCap { holding with wind := { Wind.reset with cap := 8000 }, tension := { Tension.reset with cap := 8000 } }).2
      = .setting ∧
    (effectiveCap flying).2 = .wind ∧ (effectiveCap { flying with wind := { Wind.reset with cap := 8000 } }).2 = .tension ∧
    (let s : State := { flying with
        queue := queueOf [{ running with bound := some ⟨⟨30000000, 5000000, 20000000⟩, some 6000⟩ }] true };
      (effectiveCap s).2 = .move ∧ moveCap s = some 6000) ∧
    (0 : Int) ≤ 0 ∧ Vec.sq ⟨0, 0, 0⟩ ≤ 0 * 0 ∧ Vec.sq ⟨3, 4, 0⟩ ≤ 5 * 5 ∧ limitMagnitude 0 ⟨3, 4, 0⟩ = ⟨0, 0, 0⟩ ∧
    (0 : Int) < 1 ∧ approachSpeed 1 0 0 = 0 ∧ approachSpeed 20 6000 20000000 = 6000 ∧
    limitComponent 20 3000 3010 = 3010 ∧ limitComponent 20 3000 6000 = 3020 ∧ limitComponent 20 3000 0 = 2980 ∧
    limitComponent 20 3000 3000 = 3000 ∧ (5 * 5 : Int) < 3 * 3 + 4 * 4 + 1 * 1 := by decide +kernel

/-! ## Witnesses: frames -/

theorem witness_RequestsDecodeFromTheirFrames :
    Instr.wellFormed (.set .rig 255 255 255 ⟨2147483647, -2147483648, 0⟩) = true ∧
    (encodeRequest (.set .rig 255 255 255 ⟨2147483647, -2147483648, 0⟩)).isSome = true ∧
    Instr.wellFormed (.markSet .safety 0 ⟨63, ⟨0, 0, 0⟩, 65535, List.replicate 224 7⟩) = true ∧
    (encodeRequest (.markSet .safety 0 ⟨63, ⟨0, 0, 0⟩, 65535, List.replicate 224 7⟩)).isSome = true ∧
    Instr.wellFormed (.steer .rig 0 ⟨32767, -32768, 0⟩) = true := by decide +kernel

theorem witness_WireFramesAreRecovered : (List.replicate 240 (0xA5 : Byte)).length ≤ 240 ∧
    ([] : List Byte).length ≤ 240 ∧ (holding.port .rig).receiver = .hunting := by decide +kernel

/-! ## Witnesses: the servo step and the drive bus -/

theorem witness_HaltedStepsAndFreeze :
    offline.rigged = false ∧
    (halted.carrier.mode = .halted .stopped ∧ halted.path.isSome = true ∧ halted.stepSettled = true) ∧
    (let s := inMode (.halted .stopping) flying;
      s.carrier.mode = .halted .stopping ∧ s.path.isSome = true ∧ s.stepSettled = true) ∧
    (let s : State := { flying with hands := { Hands.none with freeze := true } };
      s.hands.freeze = true ∧ s.rigged = true ∧ s.path.isSome = true) ∧
    (let s : State := { offline with hands := { Hands.none with freeze := true } };
      s.hands.freeze = true ∧ s.rigged = false) := by decide +kernel

/-- At rest, accepted, refused and PARKED; an arrival at exactly the tolerance and the rate. -/
theorem witness_ServoStepMovesBrakesOrArrives :
    (holding.stepSettled = true ∧ holding.path.bind (desiredVelocity holding) = some origin) ∧
    (flying.stepSettled = true ∧ flying.path.bind (desiredVelocity flying) = some ⟨6000, 0, 0⟩ ∧
      clearance flying.zones (candidate 40 ⟨10000000, 5000000, 20000000⟩ ⟨3020, 0, 0⟩).box = true) ∧
    (clearance [{ stand with least := ⟨10961, -3000, 0⟩ }, envelope]
      (candidate 40 ⟨10000000, 5000000, 20000000⟩ ⟨3020, 0, 0⟩).box = false) ∧
    (inMode .parked holding).path.bind (desiredVelocity (inMode .parked holding)) = some origin ∧
    (let p : Path := ⟨⟨29980000, 5000000, 20000000⟩, ⟨20, -20, 0⟩, ⟨origin, origin⟩, .accepted, .all 0, 0, 0, .setting⟩;
      let s : State := { flying with path := some p };
      s.carrier.mode = .travel ∧ s.stepSettled = true ∧ s.queue.entries = [running] ∧ running.state = .running ∧
      (30000000 - p.pose.x) ^ 2 + (5000000 - p.pose.y) ^ 2 + (20000000 - p.pose.z) ^ 2
        ≤ (1000 * (running.tolerance : Int)) ^ 2 ∧
      |p.vel.x| ≤ s.settings.accelRate ∧ |p.vel.y| ≤ s.settings.accelRate ∧ |p.vel.z| ≤ s.settings.accelRate) := by
  decide +kernel

theorem witness_SlotsTakeSetpointsAndStop :
    let s : State := { flying with hands := { Hands.none with writes := [⟨3, ⟨0, 0, false⟩⟩], raises := [.again] } }
    s.rigged = true ∧ s.hands.writes = ⟨3, ⟨0, 0, false⟩⟩ :: [] ∧ s.hands.raises = .again :: [] := by decide +kernel

/-- HALTED/STOPPED with raises of STOP that stand. -/
def raised (rs : List Raise) : State := { halted with hands := { Hands.none with raises := rs } }

/-- R163: an immediate halt, the next period expiry and the arbiter: STOP is begun, and the four keepalives wait. -/
theorem test_stop_before_keepalives :
    (after .faultReport { flying with hands := { Hands.none with faults := [⟨.driveFault, some 2⟩] } } id).bind
      (fun t => (after .drivePeriodExpiry t id).bind (fun u => after .transmitBegin u (fun v =>
        (v.bus.flight.map Flight.content, v.bus.slots.toList.map (Option.map Setpoint.brake), v.hands.raises)))) =
      some (some (.stop (some .driveFault)), List.replicate 4 (some true), []) := by decide +kernel

/-- R105, R163: a raise once more may come after the expiry; it withdraws the keepalives. -/
theorem test_raise_again_waits : (after .drivePeriodExpiry (raised [.again]) id).bind (fun t =>
    after .raiseStop t (fun u => (t.bus.slots.toList.all Option.isSome, t.hands.raises, u.bus.slots))) =
      some (true, [.again], .all none) := by decide +kernel

theorem witness_PeriodExpiryAgesAndKeepsBrakes :
    (flying.rigged = true ∧ flying.carrier.mode ≠ .parked ∧ flying.carrier.mode ≠ .halted .stopped ∧
      flying.bus.lastClass = .short ∧ flying.bus.keepaliveDue = false) ∧
    (min ((if TimeoutClass.long = .long then 0 else 60) + 1) 255 = 1 ∧ min (9 + 1) 255 = 10 ∧
      ({ Drive.reset with watchAge := 59 } : Drive).watchAge = 59) ∧
    offline.rigged = false ∧
    (let s (n : Nat) (c : TimeoutClass) : State := { inMode .parked flying with
        bus := { Bus.reset with countdown := n, lastClass := c } };
      (s 25 .short).carrier.mode = .parked ∧ (s 25 .short).path.isSome = true ∧ (s 25 .short).bus.lastClass = .short ∧
      (s 1 .long).bus.countdown ≤ 1 ∧ (s 2 .long).bus.lastClass = .long ∧ 1 < (s 2 .long).bus.countdown ∧
      (nextOf (exec .drivePeriodExpiry (s 1 .long))).isSome = true ∧
      (nextOf (exec .drivePeriodExpiry (s 2 .long))).isSome = true) ∧
    (.entry ∉ halted.hands.raises ∧ .entry ∉ [Raise.again] ∧ halted.carrier.mode = .halted .stopped ∧
      .entry ∈ (raised [.again, .entry]).hands.raises ∧ (nextOf (exec .raiseStop (raised [.again, .entry]))).isSome = true) ∧
    ((Bus.reset.drives.set 3 { Drive.reset with timeoutDue := true }).get 3).timeoutDue = true ∧
    (let s : State := { flying with bus := { Bus.reset with keepaliveDue := true } };
      s.bus.keepaliveDue = true ∧ s.path.isSome = true) := by decide +kernel

theorem witness_ArbiterBeginsLowestIdentifier :
    let b : Bus := { Bus.reset with slots := (Quad.all none).set 3 (some ⟨0, 0, false⟩) }
    let s : State := { flying with bus := b }
    ({ b with stopSlot := some none } : Bus).stopSlot = some none ∧
    s.bus.flight = none ∧ s.bus.stopSlot = none ∧ s.bus.slots.get 3 = some ⟨0, 0, false⟩ ∧
    (∀ v, v < (3 : Winch) → s.bus.slots.get v = none) ∧ s.carrier.mode ≠ .offline ∧ s.carrier.mode ≠ .parked ∧
    s.carrier.mode ≠ .halted .stopped ∧
    (after .transmitBegin { inMode .parked s with bus := { b with slots := b.slots.set 0 (some ⟨0, 0, true⟩) } }
      (fun t => t.bus.flight.isSome)) = some true ∧
    (let slots : Quad (Option Setpoint) := ⟨some ⟨0, 0, false⟩, none, some ⟨0, 0, true⟩, some ⟨0, 0, false⟩⟩;
      (inMode .parked s).carrier.mode = .parked ∧ offline.carrier.mode = .offline ∧
      halted.carrier.mode = .halted .stopped ∧ slots.get 2 = some ⟨0, 0, true⟩ ∧
      (∀ v < (2 : Winch), ∀ d ∈ slots.get v, d.brake = false)) ∧
    (∀ v, ∀ d ∈ b.slots.get v, d.brake = false) := by decide +kernel

theorem witness_TransmissionEndsThreeWays :
    let s : State := { flying with bus := { Bus.reset with
      failures := 15, flight := some ⟨.setpoint 3 ⟨0, 0, true⟩, 0, 0, []⟩ } }
    s.bus.flight = some ⟨.setpoint 3 ⟨0, 0, true⟩, 0, 0, []⟩ ∧ min (s.bus.failures + 1) 16 = 16 ∧
    s.bus.failures ≠ 16 ∧ s.rigged = true := by decide +kernel

/-- The least and the greatest identifier that pass, one that does not, the last state code and the first beyond. -/
theorem witness_StatusIsAcceptedOrIgnored :
    ((0x180 : BitVec 11) ^^^ flying.settings.acceptCode) &&& flying.settings.acceptMask = 0 ∧
    ((0x183 : BitVec 11) ^^^ flying.settings.acceptCode) &&& flying.settings.acceptMask = 0 ∧
    driveStateOf 3 = some .fault ∧ ((0x184 : BitVec 11) ^^^ flying.settings.acceptCode) &&& flying.settings.acceptMask ≠ 0 ∧
    ([0, 0] : List Byte).length < 3 ∧ 3 < (([4, 0, 0] : List Byte).getD 0 0).toNat := by decide +kernel

/-! ## Witnesses: carrier control -/

/-- HOLD with a move in the queue. -/
def loaded : State := { holding with queue := queueOf [shot] false }

/-- STEER. -/
def steering : State := { holding with carrier := { holding.carrier with mode := .steer, stickOwned := true, steerAge := 0 } }

/-- HOLD with no keep-in left. -/
def fenceless : State := { loaded with zones := [stand] }

def windy (s : State) : State := { s with carrier := { s.carrier with windMirror := true } }

theorem witness_CarrierRequestsChangeMode :
    (loaded.carrier.mode = .hold ∧ loaded.queue.entries ≠ [] ∧ loaded.carrier.windMirror = false ∧
      loaded.boxKeptIn = true) ∧
    flying.carrier.mode = .travel ∧ steering.carrier.mode = .steer ∧ steering.hands.stepCarrier = none ∧
    loaded.hands.stepCarrier = none ∧ loaded.carrier.lastAtRest = true ∧
    (inMode .parked holding).carrier.mode = .parked ∧
    (loaded.takes .rig (.run .rig 0) = true ∧ loaded.takes .rig (.takeStick .rig 0) = true ∧
      loaded.takes .safety (.park .safety 0) = true ∧ flying.takes .safety (.stop .safety 0) = true ∧
      steering.takes .rig (.stop .rig 0) = true ∧ steering.takes .rig (.releaseStick .rig 0) = true ∧
      steering.takes .rig (.steer .rig 0 origin) = true ∧
      (inMode .parked holding).takes .rig (.unpark .rig 0) = true) := by decide +kernel

/-- `s` with a step result standing at carrier control. -/
def resulted (s : State) : State := { s with hands := { s.hands with stepCarrier := some (restAt false .braked true) } }

/-- R110: no step result stands, or one stands in HALTED/STOPPING or while OFFLINE. -/
theorem witness_carrierSettled : holding.carrierSettled ∧ (resulted halting).carrierSettled ∧
    (resulted offline).carrierSettled ∧ (resulted halting).hands.stepCarrier ≠ none :=
  ⟨.inl rfl, .inr (.inl rfl), .inr (.inr rfl), by decide⟩

theorem witness_CarrierRequestsAreRefused :
    (∀ p c, (resulted halting).takes p c = true ∧ (resulted offline).takes p c = true ∧ loaded.takes p c = true ∧ flying.takes p c = true ∧ halted.takes p c = true ∧ halting.takes p c = true ∧
      offline.takes p c = true) ∧
    flying.carrier.mode ≠ .hold ∧ flying.carrier.mode ≠ .steer ∧ flying.carrier.mode ≠ .parked ∧
    halted.carrier.mode ≠ .travel ∧ halted.carrier.mode ≠ .steer ∧ offline.carrier.mode = .offline ∧
    (let s : State := { holding with carrier := { holding.carrier with lastAtRest := false } };
      s.carrier.mode = .hold ∧ s.hands.stepCarrier = none ∧ s.carrier.lastAtRest = false ∧ s.queue.entries = []) ∧
    ((windy loaded).carrier.mode = .hold ∧ (windy loaded).queue.entries ≠ [] ∧ (windy loaded).carrier.windMirror = true) ∧
    (fenceless.carrier.mode = .hold ∧ fenceless.queue.entries ≠ [] ∧ fenceless.carrier.windMirror = false ∧
      fenceless.boxKeptIn = false) ∧
    flying.carrier.mode.isHalted = false ∧
    (let s : State := { halted with carrier := { halted.carrier with poseLost := true } };
      s.carrier.mode.isHalted = true ∧ s.carrier.poseLost = true) ∧
    (halting.carrier.mode = .halted .stopping ∧ halting.carrier.poseLost = false) := by
  refine ⟨fun p c => ?_, by decide +kernel⟩
  cases p <;> exact ⟨fresh_takes _ _ _ rfl, fresh_takes _ _ _ rfl, fresh_takes _ _ _ rfl, fresh_takes _ _ _ rfl,
    fresh_takes _ _ _ rfl, fresh_takes _ _ _ rfl, fresh_takes _ _ _ rfl⟩

def reporting (s : State) (r : Report) : State := { s with hands := { Hands.none with faults := [r] } }

theorem witness_ReportsAndLineHalt :
    ((reporting offline ⟨.slack, some 0⟩).hands.faults = ⟨.slack, some 0⟩ :: [] ∧
      (reporting offline ⟨.slack, some 0⟩).hands.stepCarrier = none ∧ offline.carrier.mode = .offline ∧
      Cause.request ∈ halted.carrier.causes) ∧
    (holding.carrier.mode = .hold ∧ steering.carrier.mode = .steer ∧ flying.carrier.mode = .travel ∧
      Cause.overload ∉ flying.carrier.causes ∧ Cause.overload.immediate = false) ∧
    (inMode .parked holding).carrier.mode = .parked ∧
    (flying.carrier.mode ≠ .offline ∧ flying.carrier.mode ≠ .halted .stopped ∧ Cause.tracking ∉ flying.carrier.causes ∧
      Cause.tracking.immediate = true) ∧
    (halting.carrier.mode.isHalted = true ∧ Cause.slack ∉ halting.carrier.causes ∧ Cause.slack.immediate = false) ∧
    ((resulted halting).carrier.mode = .halted .stopping ∧ (resulted halting).hands.stepCarrier ≠ none ∧
      (resulted halting).hands.faults = ⟨.tracking, some 2⟩ :: [] ∧ Cause.tracking ∉ halting.carrier.causes) ∧
    (halted.carrier.mode = .halted .stopped ∧ Cause.driveFault ∉ halted.carrier.causes ∧
      Cause.linkLost ∉ halted.carrier.causes ∧ Cause.tracking ∉ halted.carrier.causes ∧
      halted.carrier.poseLost = false) ∧
    (holding.takes .rig (.halt .rig 0) = true ∧ holding.estop = false ∧ Cause.estop ∉ holding.carrier.causes ∧ Cause.request ∉ holding.carrier.causes) ∧
    ({ holding with estop := true } : State).estop = true := by decide +kernel

theorem witness_CarrierTakesHandOffs :
    (let r := restAt false .braked true;
      let s : State := { halting with hands := { Hands.none with stepCarrier := some r } };
      s.hands.stepCarrier = some r ∧ s.carrier.mode = .halted .stopping ∧ r.atRest = true) ∧
    (let r := restAt false .accepted false;
      let s : State := { flying with hands := { Hands.none with stepCarrier := some r } };
      s.hands.stepCarrier = some r ∧ s.carrier.mode ≠ .offline ∧
        ¬(s.carrier.mode = .halted .stopping ∧ r.atRest = true)) ∧
    offline.carrier.mode = .offline ∧
    (let s (n : Nat) : State := { flying with hands := { Hands.none with ends := [⟨n, .empty⟩] } };
      (s 1).hands.ends = ⟨1, .empty⟩ :: [] ∧ (s 1).carrier.mode = .travel ∧ (1 : Nat) = (s 1).carrier.begun ∧
      (0 : Nat) ≠ (s 0).carrier.begun) ∧
    (let s : State := { flying with hands := { Hands.none with windChanges := [true] } };
      s.hands.windChanges = true :: [] ∧ s.carrier.mode = .travel) ∧
    steering.carrier.mode = .steer ∧
    (holding.carrier.mode ≠ .offline ∧ holding.carrier.mode ≠ .steer ∧ holding.carrier.mode ≠ .travel) := by
  decide +kernel

/-- Each condition of the acceptance at the end of its range; then each row of Table 5-5 on winch 3, at its bound. -/
theorem witness_ClearHaltTestsConditions :
    let edge : State := { halted with
      settings := { halted.settings with tensionSlack := .all 4999, tensionMax := .all 5001 }
      drums := .all { Drum.reset ⟨false, false⟩ with illegal := 3 }
      bus := { halted.bus with drives := .all ⟨some 59, 0, some .braked, 0, 0, false⟩ } }
    let lane (l : LaneRec) : LaneRec := { l with state := .stale }
    let stale : State := { halted with tension := { halted.tension with
      lanes := { halted.tension.lanes with l6 := lane halted.tension.lanes.l6, l7 := lane halted.tension.lanes.l7 } } }
    let drive (d : Drive) : Bus := { halted.bus with drives := halted.bus.drives.set 3 d }
    (edge.takes .safety (.clearHalt .safety 0) = true ∧
      edge.carrier.mode = .halted .stopped ∧ edge.carrier.poseLost = false ∧ edge.estop = false ∧
      ∀ w : Winch, winchFresh edge.settings edge.tension w = true ∧
        edge.settings.tensionSlack.get w < (edge.tension.winches.get w).tension ∧
        (edge.tension.winches.get w).tension < edge.settings.tensionMax.get w ∧ (edge.drums.get w).illegal < 4 ∧
        (edge.bus.drives.get w).state ≠ some .fault ∧ ∀ a ∈ (edge.bus.drives.get w).statusAge, a < 60) ∧
    ({ halted with estop := true } : State).estop = true ∧
    (stale.carrier.mode = .halted .stopped ∧ (∀ v < (3 : Winch), winchFresh stale.settings stale.tension v = true) ∧
      winchFresh stale.settings stale.tension 3 = false) ∧
    ([{ halted with settings := { halted.settings with tensionMax := halted.settings.tensionMax.set 3 5000 } },
      { halted with settings := { halted.settings with tensionSlack := halted.settings.tensionSlack.set 3 5000 } },
      { halted with drums := halted.drums.set 3 { Drum.reset ⟨false, false⟩ with illegal := 4 } },
      { halted with bus := drive ⟨some 9, 0, some .fault, 0, 0, false⟩ },
      { halted with bus := drive ⟨some 60, 0, some .braked, 0, 0, false⟩ }].map
      (fun s => after (.clearHalt .safety 1) s (fun t => t.safety.answers))) =
      [3, 4, 6, 8, 9].map (fun code => some [closing 1 .haltActive code 3]) := by decide +kernel

/-! ## Witnesses: zones -/

/-- A reference box at the pose, a step result on its way, and one record of each fate: envelope stays, 2 waits clear of
the box, 3 waits and still meets it, 4 is OVERDUE and does not contain it, 5 is OVERDUE and alone contains it. -/
def resolving (alone : Bool) : State := { holding with
  zones := (if alone then [] else [envelope]) ++
    [{ stand with number := 2, state := .pending },
      { stand with number := 3, state := .pending, least := ⟨-1000, -1000, 0⟩, greatest := ⟨1000, 1000, 30000⟩ },
      { envelope with number := 4, lock := .opened, state := .overdue, least := ⟨5000, 5000, 5000⟩ },
      { envelope with number := 5, lock := .opened, state := .overdue }]
  hands := { Hands.none with stepZone := some (restAt false .atRest true) } }

theorem witness_StepResultActivatesAndResolves :
    (let s := resolving true;
      s.rigged = true ∧ s.hands.changes = [] ∧ s.hands.stepZone = some (restAt false .atRest true) ∧
      (∃ z ∈ s.zones, z.kind = .keepOut ∧ z.state = .pending ∧ z.expanded.meets (restAt false .atRest true).box = false) ∧
      (∃ z ∈ s.zones, z.kind = .keepIn ∧ z.state = .overdue ∧
        z.shrunk.contains (restAt false .atRest true).box = false) ∧
      ∃ z ∈ s.zones, z.kind = .keepIn ∧ z.state = .overdue ∧ z.shrunk.contains (restAt false .atRest true).box = true ∧
        ∀ y ∈ s.zones, y.number ≠ z.number → y.keepsIn = true →
          y.shrunk.contains (restAt false .atRest true).box = false) ∧
    (resolving true).tablesLegal ∧ (resolving false).tablesLegal := by
  unfold State.tablesLegal; decide +kernel

/-- Lifetimes of none, 1 and 2 s on both kinds; the keep-in of number 4 is in use and alone. -/
def ticking (ref : Option Box) : State := { holding with
  refBox := ref
  zones := [{ stand with number := 1 }, { stand with number := 2, lifetime := some 1 },
    { stand with number := 3, lifetime := some 2 }, { envelope with number := 4, lock := .opened, lifetime := some 1 }] }

theorem witness_LifetimesCountAndLapse :
    ((ticking holding.refBox).zonesSettled = true ∧ (ticking none).zonesSettled = true ∧
      inUse holding.refBox [envelope, { envelope with number := 4, lock := .opened, lifetime := some 1 }]
        { envelope with number := 4, lock := .opened, lifetime := some 1 } = false ∧
      inUse holding.refBox (ticking holding.refBox).zones
        { envelope with number := 4, lock := .opened, lifetime := some 1 } = true ∧
      (ticking none).refBox = none) ∧
    (ticking holding.refBox).tablesLegal ∧ (ticking none).tablesLegal ∧
    (let z : Zone := { stand with number := 48, lifetime := some 0 };
      zoneAt [envelope, z] 48 = some z ∧ z.lifetime = some 0 ∧ z.kind = .keepOut ∧ z.state = .active) ∧
    (let z : Zone := { envelope with lifetime := some 0 };
      zoneAt [z] 1 = some z ∧ z.kind = .keepIn ∧ inUse holding.refBox [z] z = true) := by
  unfold State.tablesLegal; decide +kernel

/-- A table of 47 records leaves 48, one of 48 none; a margin and a lifetime at the ends of their ranges. -/
theorem witness_ZoneAddTakesLowestNumber :
    let full (n : Nat) : List Zone := (List.range n).map (fun k => { stand with number := k + 1 })
    (holding.takes .rig (.zoneAdd .rig 0 ⟨0, ⟨0, 0, 0⟩, ⟨1000, 1000, 1000⟩, 0, 0⟩) = true ∧
      holding.zonesSettled = true ∧ extentFault ⟨0, 0, 0⟩ ⟨1000, 1000, 1000⟩ = none ∧ (14400 : Nat) ≤ 14400 ∧
      freeNumber holding.zones = some 2) ∧
    freeNumber (full 47) = some 48 ∧ freeNumber (full 48) = none ∧
    (∀ r ∈ holding.refBox, ({ stand with margin := 5000 } : Zone).expanded.meets r = false) ∧
    (∃ r ∈ holding.refBox, ({ stand with least := ⟨-1000, -1000, 0⟩ } : Zone).expanded.meets r = true) ∧
    lineRangeFault holding.settings envelope.shrunk = none ∧ envelope.shrunk.inhabited ∧
    extentFault ⟨0, 0, 0⟩ ⟨0, 0, 80001⟩ = some 2 ∧ extentFault ⟨1, 0, 0⟩ origin = some 3 ∧ (14400 : Nat) < 14401 ∧
    (∀ m < 48, ∃ z ∈ full 48, z.number = m + 1) ∧
    ({ envelope with margin := 5000, greatest := ⟨52000, 34000, 12999⟩ } : Zone).shrunk.emptyAxis = some 2 ∧
    lineRangeFault { rigSettings with lenMax := .all 150000 } envelope.shrunk = some 0 := by
  refine ⟨by decide +kernel, by decide +kernel, by decide +kernel, by decide +kernel, ?_, by decide +kernel,
    by unfold Box.inhabited; decide +kernel, by decide +kernel, by decide +kernel, by decide, by decide +kernel,
    by decide +kernel, by decide +kernel⟩
  exact ⟨⟨⟨0, 0, 20000000⟩, ⟨0, 0, 20000000⟩⟩, rfl, by decide +kernel⟩

theorem witness_ZoneEditAndRetire :
    (holding.takes .rig (.zoneEdit .rig 0 ⟨7, ⟨1000, 0, 0⟩, ⟨14000, 12000, 30000⟩, 500, 0, 0⟩) = true ∧
      holding.takes .rig (.zoneRetire .rig 0 7) = true ∧
      holding.zonesSettled = true ∧ zoneAt holding.zones 7 = some stand ∧ stand.origin = .rig ∧ stand.lock = .opened ∧
      stand.state = .active ∧ extentFault ⟨1000, 0, 0⟩ ⟨14000, 12000, 30000⟩ = none ∧
      ∀ r ∈ holding.refBox, ({ stand with least := ⟨1000, 0, 0⟩, margin := 500 } : Zone).expanded.meets r = false) ∧
    (let z : Zone := { envelope with lock := .opened };
      zoneAt [z] 1 = some z ∧ z.shrunk.emptyAxis = none ∧ lineRangeFault holding.settings z.shrunk = none ∧
      inUse holding.refBox [z] z = true ∧ (∀ r ∈ holding.refBox, z.shrunk.contains r = true) ∧
      inUse none [z] z = false) ∧
    (zoneAt holding.zones 48 = none ∧ envelope.origin = .safety ∧ envelope.lock ≠ .opened ∧
      extentFault ⟨1, 0, 0⟩ origin = some 3 ∧ 2 < 3) ∧
    (∃ r ∈ holding.refBox, ({ stand with least := ⟨-1000, -1000, 0⟩ } : Zone).expanded.meets r = true) ∧
    (({ stand with state := .pending } : Zone).state = .pending ∧ ({ envelope with state := .overdue } : Zone).kind = .keepIn) ∧
    (let z : Zone := { envelope with lock := .opened };
      inUse holding.refBox [z] z = true ∧
        ∃ r ∈ holding.refBox, ({ z with least := ⟨1000, 0, 3000⟩ } : Zone).shrunk.contains r = false) := by
  refine ⟨by decide +kernel, by decide +kernel, by decide +kernel, ?_, by decide +kernel, by decide +kernel, ?_⟩
  · exact ⟨⟨⟨0, 0, 20000000⟩, ⟨0, 0, 20000000⟩⟩, rfl, by decide +kernel⟩
  · exact ⟨⟨⟨0, 0, 20000000⟩, ⟨0, 0, 20000000⟩⟩, rfl, by decide +kernel⟩

theorem witness_LockRequestsFollowTable :
    holding.takes .safety (.zoneLock .safety 0 7) = true ∧ holding.takes .rig (.zoneUnlock .rig 0 48) = true ∧
    holding.zonesSettled = true ∧ zoneAt holding.zones 48 = none ∧ zoneAt holding.zones 7 = some stand ∧
    stand.lock = .opened ∧ envelope.lock = .fixed ∧ zoneAt [{ stand with lock := .locked }] 7 =
      some { stand with lock := .locked } := by decide +kernel

/-- The last filter there is, and the first there is not. -/
theorem witness_ZoneFixReadAndList :
    (holding.takes .safety (.zoneFix .safety 0 7) = true ∧ holding.takes .rig (.zoneRead .rig 0 0) = true ∧
      holding.takes .rig (.zoneList .rig 0 2 2) = true) ∧
    (holding.zonesSettled = true ∧ zoneAt holding.zones 7 = some stand ∧ stand.lock ≠ .fixed ∧ stand.lifetime = none ∧
      stand.state ≠ .overdue) ∧
    ({ stand with lifetime := some 1 } : Zone).lifetime ≠ none ∧ zoneAt holding.zones 0 = none ∧
    (holding.takes .rig (.zoneFix .rig 0 7) = true ∧ holding.takes .safety (.zoneFix .safety 0 48) = true ∧
      zoneAt holding.zones 48 = none ∧ zoneAt holding.zones 1 = some envelope ∧ envelope.lock = .fixed) ∧
    (holding.takes .rig (.zoneList .rig 0 1 2) = true ∧ 1 < 2 ∧ holding.takes .safety (.zoneList .safety 0 2 3) = true ∧
      2 < 3) := by decide +kernel

/-- R37, R44: ZONE_FIX from the rig, of a free number and of a FIXED record, and the codes one past the last. -/
theorem test_zone_refusals :
    after (.zoneFix .rig 9 7) holding (fun t => t.rig.answers) = some [closing 9 .notPermitted 7 0] ∧
    after (.zoneFix .safety 9 48) holding (fun t => t.safety.answers) = some [closing 9 .noRecord 48 0] ∧
    after (.zoneFix .safety 9 1) holding (fun t => t.safety.answers) = some [closing 9 .ok 1 0] ∧
    after (.zoneList .rig 9 1 2) holding (fun t => t.rig.answers) = some [closing 9 .outOfRange 0 7] ∧
    after (.zoneList .rig 9 2 3) holding (fun t => t.rig.answers) = some [closing 9 .outOfRange 0 7] := by decide +kernel

/-! ## Witnesses: marks -/

def shotMark : Mark := ⟨63, ⟨30000, 5000, 20000⟩, some 500, List.replicate 16 0x41, .blocked, 0⟩

def marked (s : State) : State := { s with marks := [shotMark] }

theorem witness_MarkSetAndHereStore :
    holding.takes .rig (.markSet .rig 0 ⟨63, ⟨-100000, 100000, 0⟩, 0, []⟩) = true ∧
    holding.takes .safety (.markHere .safety 0 ⟨63, 0, []⟩) = true ∧
    holding.hands.changes = [] ∧ 63 ≤ 63 ∧ positionFault ⟨-100000, 100000, 0⟩ = none ∧
    labelFault (List.replicate 16 0x20) = none ∧ labelFault [] = none ∧ holding.carrier.mode ≠ .offline ∧
    holding.carrier.poseLost = false ∧ holding.path.map Path.pose = some ⟨0, 0, 20000000⟩ ∧
    (⟨0, 0, 20000⟩ : Vec3) = ⟨roundToMm 0, roundToMm 0, roundToMm 20000000⟩ ∧ markAt holding.marks 63 = none ∧
    markAt (marked holding).marks 63 = some shotMark ∧ positionFault ⟨0, 0, 20000⟩ = none ∧
    [500, 499, -500, -499, 1500].map roundToMm = [1, 0, -1, 0, 2] ∧ 63 < 64 ∧
    positionFault ⟨0, -100001, 0⟩ = some 1 ∧ labelFault (List.replicate 17 0x20) = some 6 ∧
    labelFault [0x20, 0x7E, 0x7F] = some 0x12 ∧ offline.carrier.mode = .offline ∧
    ({ halted.carrier with poseLost := true } : Carrier).poseLost = true := by decide +kernel

/-- The lowest of two keep-outs, a keep-in alone, and neither. -/
theorem witness_MarkTestFindsBlocker :
    let zones : List Zone := [envelope, { stand with number := 6 }, stand]
    zones.Pairwise (fun a b => a.number < b.number) ∧
    (∀ z ∈ zones, z.number = 6 → z.expanded.holds ⟨12000000, 0, 5000000⟩ = true) ∧
    markTest zones ⟨12000, 0, 5000⟩ = (.blocked, 6) ∧ markTest zones ⟨0, 0, 5000⟩ = (.clear, 0) ∧
    markTest zones ⟨60000, 0, 5000⟩ = (.blocked, 0) := by decide +kernel

theorem witness_MarkRetireReadAndList :
    (marked holding).takes .rig (.markRetire .rig 0 63) = true ∧ (marked holding).takes .rig (.markRead .rig 0 0) = true ∧
    (marked holding).takes .safety (.markList .safety 0 2) = true ∧
    (marked holding).hands.changes = [] ∧ markAt (marked holding).marks 63 = some shotMark ∧ 63 < 64 ∧
    markAt (marked holding).marks 0 = none ∧ 2 < 3 := by decide +kernel

theorem witness_ChangesReevaluateEveryMark :
    let s : State := { marked holding with hands := { Hands.none with changes := [[1]] } }
    s.hands.changes = [1] :: [] ∧ (markTest s.zones shotMark.point).1 ≠ shotMark.state := by decide +kernel

/-! ## Witnesses: settings, rigging and unrigging -/

/-- The ends of a range, one below it and one above it, for a rig setting, a live setting and the interval. -/
theorem witness_SetStoresAndGetReads :
    (holding.takes .rig (.set .rig 0 0x02 3 origin) = true ∧ offline.takes .rig (.set .rig 0 0x02 3 origin) = true ∧
      ready.takes .safety (.set .safety 0 0x16 11 ⟨2047, 0, 0⟩) = true ∧ offline.takes .rig (.get .rig 0 0x01 4) = true) ∧
    (settingClass 0x02 3 = some .rig ∧ plainRange 0x02 = some (1000, 250000) ∧ holding.rigged = true ∧
      offline.rigged = false ∧ ¬((1000 : Int) ≤ 999 ∧ (999 : Int) ≤ 250000) ∧
      ¬((1000 : Int) ≤ 250001 ∧ (250001 : Int) ≤ 250000) ∧ (1000 : Int) ≤ 250000) ∧
    (settingClass 0x05 0 ≠ none ∧ ((0x05, 0) : Nat × Nat) ≠ (0x02, 3)) ∧
    ((plainRule 0x01 ⟨-100000, 100000, 80000⟩).map Prod.fst = some true ∧
      (plainRule 0x01 ⟨0, 0, 80001⟩).map Prod.fst = some false ∧ (plainRule 0x20 ⟨250, 0, 0⟩).map Prod.fst = some true ∧
      (plainRule 0x20 ⟨999, 0, 0⟩).map Prod.fst = some false ∧ (plainRule 0x13 ⟨65535, 0, 0⟩).map Prod.fst = some true ∧
      (plainRule 0x13 ⟨0, 0, 0⟩).map Prod.fst = some false) ∧
    (offline.rigged = false ∧ (offline.tension.lanes.get 7).state ≠ .good ∧
      (offline.tension.lanes.get 7).state ≠ .checking ∧ ready.rigged = false ∧ (ready.tension.lanes.get 7).state = .good ∧
      ready.settings.laneMap.get 7 = some ⟨3, .b⟩ ∧ ready.settings.laneMap.get 6 = some ⟨3, .a⟩ ∧
      (ready.tension.lanes.get 6).valid = true) ∧
    (let l : LaneRec := { LaneRec.reset with state := .checking, check := some ⟨none, 0⟩ };
      let s : State := { offline with
        tension := { offline.tension with lanes := .all l }, rig := { PortRec.reset with service := some ⟨.laneCheck 7, 3, 0⟩ } };
      s.takes .safety (.set .safety 0 0x12 7 ⟨15, 0, 0⟩) = true ∧
        s.rigged = false ∧ (s.tension.lanes.get 7).state = .checking ∧
        (s.port .rig).service = some ⟨.laneCheck 7, 3, 0⟩ ∧ (s.port .safety).checks 7 = false) ∧
    laneSet ready.settings 0x12 7 ⟨15, 0, 0⟩ { ready.settings with laneGain := ready.settings.laneGain.set 7 15 } ∧
    laneSet ready.settings 0x10 7 ⟨-1, 5, 0⟩ { ready.settings with laneMap := ready.settings.laneMap.set 7 none } ∧
    (∀ l st', ¬laneSet ready.settings 0x11 l ⟨2, 0, 0⟩ st') ∧
    (filterSet ready.settings 0x16 11 ⟨2047, 0, 0⟩
        { ready.settings with filterCoeff := ready.settings.filterCoeff.set 11 2047 } ∧
      settingClass 0x16 11 = some .rig ∧ 11 < ready.settings.filterCoeff.length) ∧
    (∀ st', ¬filterSet ready.settings 0x15 0 ⟨2, 0, 0⟩ st') ∧
    (settingClass 0x41 3 = some .live ∧ offline.takes .safety (.set .safety 0 0x41 3 ⟨19999, 0, 0⟩) = true ∧
      (19999 < offline.settings.tensionWarn.get 3 ∧ offline.settings.tensionWarn.get 3 < offline.settings.tensionMax.get 3) ∧
      ¬(20000 < offline.settings.tensionWarn.get 3) ∧ settingClass 0x45 0 = some .live ∧
      1399 < offline.settings.windStop ∧ ¬1400 < offline.settings.windStop ∧ settingClass 0x40 0 = some .live) ∧
    settingClass 0x01 4 = none ∧ settingClass 0 0 = none := by
  refine ⟨by decide +kernel, by decide +kernel, by decide +kernel, by decide +kernel, by decide +kernel,
    by decide +kernel, ?_, ?_, ?_, ⟨?_, by decide +kernel, by decide +kernel⟩, ?_, by decide +kernel, by decide +kernel, by decide +kernel⟩
  · exact .inr (.inr (.inr (.inr (.inr (.inl ⟨rfl, by decide, by decide, rfl⟩)))))
  · exact .inl ⟨rfl, rfl, rfl⟩
  · intro l st' h; unfold laneSet at h; simp at h
  · exact .inr (.inr ⟨rfl, by decide, by decide, rfl⟩)
  · intro st' h; unfold filterSet at h; simp at h

/-- R13, R131, R136: a SET of the filter leaves a winch of two fresh cells at NONE with its last tension. -/
theorem test_filter_keeps_tension : after (.set .rig 1 0x15 0 ⟨1, 0, 0⟩) ready
    (fun t => t.tension.winches.toList.map (fun w => (w.tension, w.flag))) = some (List.replicate 4 (5000, .none)) := by
  decide +kernel

/-- R13, R136: a SET of the gain of one of two cells leaves its winch with the other. -/
theorem test_gain_leaves_single : after (.set .rig 1 0x12 7 ⟨3, 0, 0⟩) ready
    (fun t => t.tension.winches.toList.map WinchRec.flag) = some [.pair, .pair, .pair, .single] := by decide +kernel

theorem witness_RigCommitRigsAtPose :
    (ready.takes .rig (.rigCommit .rig 0 ⟨0, 0, 5000⟩) = true ∧ holding.takes .safety (.rigCommit .safety 0 origin) = true ∧
      ready.rigged = false ∧ positionFault ⟨0, 0, 5000⟩ = none ∧ commitFault ready ⟨0, 0, 5000000⟩ = none) ∧
    holding.rigged = true ∧ positionFault ⟨0, 100001, 0⟩ = some 1 ∧
    (offline.rigged = false ∧ commitFault { ready with settings := { ready.settings with lenMax := .all 150000 } }
      ⟨0, 0, 5000000⟩ = some (11, 1)) ∧
    commitFault { ready with estop := true } ⟨0, 0, 5000000⟩ = some (13, 0) := by decide +kernel

theorem witness_CommitChecksAreTheTable : commitFault ready ⟨0, 0, 5000000⟩ = none ∧
    commitFault { ready with settings := { ready.settings with stopRate := 19 } } ⟨0, 0, 5000000⟩ = some (2, 0) := by
  decide +kernel

/-- Table 1-4, R15: the last pair of anchors, a winch, each pass of LANES, and the zone of a pose on a face of it. -/
theorem test_commit_indices :
    let fault (st : Settings) : Option (Nat × Nat) := commitFault { ready with settings := st } ⟨0, 0, 5000000⟩
    let st := ready.settings
    fault { st with anchor := st.anchor.set 3 { st.anchor.get 2 with z := (st.anchor.get 2).z - 999 } } = some (1, 11) ∧
    fault { st with lineSpeed := st.lineSpeed.set 3 1 } = some (3, 3) ∧
    fault { st with laneMap := (st.laneMap.set 6 none).set 7 none } = some (5, 0x03) ∧
    fault { st with laneMap := st.laneMap.set 7 (some ⟨0, .a⟩) } = some (5, 0x17) ∧
    commitFault { ready with tension := { ready.tension with
      lanes := ready.tension.lanes.set 7 { LaneRec.reset with state := .stale } } } ⟨0, 0, 5000000⟩ = some (5, 0x27) ∧
    commitFault { ready with zones := [{ stand with number := 48, least := ⟨0, 0, 0⟩, greatest := ⟨9, 9, 5000⟩, margin := 0 }] }
      ⟨0, 0, 5000000⟩ = some (10, 48) := by decide +kernel

theorem witness_UnrigReturnsOffline :
    let waiting : Zone := { stand with number := 8, state := .pending }
    (inMode .parked holding).takes .safety (.unrig .safety 0) = true ∧
    holding.takes .rig (.unrig .rig 0) = true ∧ (inMode .parked holding).marksSettled = true ∧ (inMode .parked holding).carrier.mode = .parked ∧
    halted.carrier.mode = .halted .stopped ∧ (holding.carrier.mode = .hold ∧ holding.carrier.lastAtRest = true) ∧
    (inMode .parked holding).hands.stepCarrier = none ∧ holding.zones.filter (fun z => z.waits || z.lapsesAtUnrig) = [] ∧
    [envelope, waiting].filter (fun z => z.waits || z.lapsesAtUnrig) ≠ [] ∧ offline.carrier.mode = .offline ∧
    steering.carrier.mode = .steer ∧ halting.carrier.mode = .halted .stopping ∧
    ((resulted halting).takes .safety (.unrig .safety 0) = true ∧ (resulted offline).carrier.mode = .offline) ∧
    (let s : State := { holding with carrier := { holding.carrier with lastAtRest := false } };
      s.marksSettled = true ∧ s.carrier.mode = .hold ∧ s.carrier.lastAtRest = false) := by decide +kernel

/-! ## Witnesses: tension -/

/-- Every lane of `ready` as given. -/
def laned (s : State) (r : LaneRec) : State := { s with tension := { s.tension with lanes := .all r } }

/-- Lane 7 under check at the rig port, `n` words matched, the last one `last`. -/
def checking (n : Nat) (last : Option (BitVec 16)) : State := { laned ready LaneRec.reset with
  tension := { ready.tension with
    lanes := (Oct.all LaneRec.reset).set 7 { LaneRec.reset with state := .checking, watch := true, check := some ⟨last, n⟩ } }
  rig := { PortRec.reset with service := some ⟨.laneCheck 7, 3, 0⟩ } }

theorem witness_LaneCheckRunsAndEnds :
    (let s := laned ready LaneRec.reset;
      s.takes .rig (.laneCheck .rig 0 7) = true ∧ s.takes .rig (.laneCheck .rig 0 8) = true ∧
        (checking 0 none).takes .safety (.laneCheck .safety 0 7) = true ∧
        s.rigged = false ∧ s.settings.laneMap.get 7 ≠ none ∧ (s.tension.lanes.get 7).state ≠ .checking ∧
        (s.tension.lanes.get 7).state ≠ .good) ∧
    (ready.takes .rig (.laneCheck .rig 0 7) = true ∧ ready.rigged = false ∧
      ready.settings.laneMap.get 7 = some ⟨3, .b⟩ ∧ (ready.tension.lanes.get 7).state = .good ∧
      ready.settings.laneMap.get 6 = some ⟨3, .a⟩ ∧ (ready.tension.lanes.get 6).state = .good ∧
      (ready.tension.lanes.get 6).valid = true) ∧
    holding.rigged = true ∧ offline.settings.laneMap.get 7 = none ∧
    ((checking 0 none).rigged = false ∧ (checking 0 none).settings.laneMap.get 7 ≠ none ∧
      ((checking 0 none).tension.lanes.get 7).state = .checking) ∧ 8 ≤ 8 ∧
    (let s := checking 63 (some 0x5555);
      let v : Service := ⟨.laneCheck 7, 3, 0⟩;
      (s.tension.lanes.get 7).state = .checking ∧ (s.tension.lanes.get 7).check = some ⟨some 0x5555, 63⟩ ∧
      (s.port .rig).service = some v ∧ v.work = .laneCheck 7 ∧ (s.port .safety).checks 7 = false ∧
      s.settings.lanePattern.get 7 = (0x5555, 0xAAAA) ∧ (s.tension.lanes.get 7).watch = true ∧ 0 + 1 < 64) := by
  decide +kernel

/-- R139, R136: a check of a GOOD lane leaves its winch with the other cell, and a second one with none. -/
theorem test_check_reforms_winch :
    after (.laneCheck .rig 9 7) ready (fun t => t.tension.winches.w3.flag) = some .single ∧
    after (.laneCheck .rig 9 7)
      { ready with tension := { ready.tension with lanes := ready.tension.lanes.set 6 LaneRec.reset } }
      (fun t => (t.tension.winches.w3.flag, t.tension.winches.w3.tension)) = some (.none, 5000) := by decide +kernel

/-- Lane 5 maps to the cell of lane 7 too, and the cells of winch 3 differ by `n`. -/
def doubled (n : Int) : State := { tuned holding with
  settings := { (tuned holding).settings with laneMap := (tuned holding).settings.laneMap.set 5 (some ⟨3, .b⟩) }
  tension := { (tuned holding).tension with winches := .all ⟨5000, .pair, 0, 0, 5000, 5000 + n⟩ } }

/-- R133, R136, R138: a silence while rigged leaves a winch with two cells, one or none, and forms the cap. -/
theorem test_silence_reforms_winch :
    after (.silenceExpiry 7) (doubled 2000) (fun t => (t.tension.winches.w3.flag, t.tension.winches.w3.tension)) =
      some (.pair, 6000) ∧
    after (.silenceExpiry 7) (doubled 2001) (fun t => (t.tension.winches.w3.flag, t.tension.winches.w3.tension)) =
      some (.disagree, 7001) ∧
    after (.silenceExpiry 7) (tuned holding) (fun t => (t.tension.winches.w3.flag, t.hands.faults)) = some (.single, []) ∧
    after (.silenceExpiry 7)
      { tuned holding with tension := { (tuned holding).tension with lanes := (tuned holding).tension.lanes.set 6 LaneRec.reset } }
      (fun t => (t.tension.winches.w3.flag, t.hands.faults)) = some (.none, [⟨.senseLost, some 3⟩]) := by decide +kernel

theorem witness_SamplesBecomeWinchTension :
    (let r : LaneRec := { LaneRec.reset with state := .unchecked, samples := 10 };
      r.state ≠ .checking ∧ r.state ≠ .stale ∧ (if r.samples = 15 then 12 else r.samples + 1) ≠ 12) ∧
    (let r : LaneRec := { LaneRec.reset with state := .bad, samples := 15 };
      r.state = .bad ∧ (if r.samples = 15 then 12 else r.samples + 1) = 12) ∧
    (let r : LaneRec := { LaneRec.reset with state := .good, samples := 11 };
      r.state = .good ∧ (if r.samples = 15 then 12 else r.samples + 1) = 12 ∧
        ready.settings.laneMap.get 7 = some ⟨3, .b⟩ ∧ offline.settings.laneMap.get 7 = none ∧ ready.rigged = false ∧
        (tuned holding).rigged = true ∧ (tuned holding).settings.laneMap.get 7 = some ⟨3, .b⟩) ∧
    (inLane .stale).l0.state = .stale ∧ ((inLane .good).get 7).watch = true ∧ LaneRec.reset.watch = false ∧
    (let lanes' := fun s : State => s.tension.lanes.set 7 { s.tension.lanes.get 7 with state := .stale, watch := false };
      let fresh := fun (s : State) (x : Cell) => ∃ k, s.settings.laneMap.get k = some ⟨3, x⟩ ∧ ((lanes' s).get k).state = .good ∧
        ((lanes' s).get k).valid = true;
      let s := tuned holding;
      let alone : State := { s with tension := { s.tension with lanes := s.tension.lanes.set 6 LaneRec.reset } };
      (s.tension.lanes.get 7).watch = true ∧ (s.tension.lanes.get 7).state = .good ∧
        s.settings.laneMap.get 7 = some ⟨3, .b⟩ ∧ s.rigged = true ∧ ready.rigged = false ∧
        (fresh (doubled 2000) .a ∧ fresh (doubled 2000) .b) ∧ (fresh s .a ∧ ¬fresh s .b) ∧ ¬fresh alone .a ∧ ¬fresh alone .b) ∧
    ((0 : Int) ≤ rigSettings.speedCap ∧ ∀ w, rigSettings.tensionWarn.get w < rigSettings.tensionMax.get w) := by
  decide +kernel

/-! ## Witnesses: drums and wind -/

theorem witness_EncoderCountsQuadrature :
    let d : Drum := { Drum.reset ⟨false, false⟩ with illegal := 255 }
    let s : State := { holding with drums := .all d }
    (s.drums.get 3).levels = ⟨false, false⟩ ∧ (true ≠ (s.drums.get 3).levels.a ∧ true ≠ (s.drums.get 3).levels.b) ∧
    s.rigged = true ∧ 4 ≤ min (d.illegal + 1) 255 ∧ offline.rigged = false ∧
    min ((Drum.reset ⟨false, false⟩).illegal + 1) 255 < 4 := by decide +kernel

theorem witness_TrackingAndWindAreJudged :
    (let r := restAt false .atRest true;
      let s : State := { flying with hands := { Hands.none with stepDrum := some r } };
      s.hands.stepDrum = some r ∧ s.rigged = true ∧ s.carrier.poseLost = false ∧ s.path.isSome = true) ∧
    offline.rigged = false ∧ ({ halted.carrier with poseLost := true } : Carrier).poseLost = true ∧
    (let s (hold : Bool) (pulses : Nat) : State := { flying with
        settings := { rigSettings with windCmPerPulse := 1 }, wind := { Wind.reset with hold := hold, pulses := pulses } };
      (s false 1400).rigged = true ∧ (s false 1400).settings.windStop ≤ 1400 * 1 ∧ 1399 * 1 < (s false 1399).settings.windStop ∧
      (s true 800).wind.hold = true ∧ 800 * 1 ≤ (s true 800).settings.windFull ∧
      (s true 801).settings.windFull < 801 * 1) := by decide +kernel

/-! ## Witnesses: the move queue -/

def queued (s : State) (es : List Entry) (flag : Bool) : State := { s with queue := queueOf es flag }

/-- A table in which the mark is CLEAR. -/
def clearMarked (s : State) : State := { s with marks := [{ shotMark with state := .clear }] }

/-- A point beyond zone 7, one this side of it, and one inside it. -/
theorem witness_MoveAddJoinsTheTail :
    loaded.takes .rig (.moveAdd .rig 0 ⟨1, 0, ⟨0, 5000, 20000⟩, 0, 0, 0, 1⟩) = true ∧
    (loaded.marksSettled = true ∧ targetOf 1 0 ⟨0, 5000, 20000⟩ = some (.point ⟨0, 5000, 20000⟩) ∧
      releaseOf 1 = some .cue ∧ targetFault (.point ⟨0, 5000, 20000⟩) = none ∧ targetOf 0 63 origin = some (.mark 63) ∧
      targetFault (.mark 63) = none) ∧
    offline.carrier.mode = .offline ∧ loaded.carrier.mode = .hold ∧
    8 ≤ (queued holding (List.replicate 8 shot) false).queue.entries.length ∧
    (queued holding (List.replicate 7 shot) false).queue.entries.length < 8 ∧ markAt loaded.marks 63 = none ∧
    (markAt (marked loaded).marks 63 = some shotMark ∧ shotMark.state = .blocked) ∧
    markTest loaded.zones ⟨12000, 0, 5000⟩ = (.blocked, 7) ∧
    (targetPoint loaded.marks (.point ⟨0, 5000, 20000⟩) = some ⟨0, 5000000, 20000000⟩ ∧
      (judgeTarget loaded.zones loaded.marks (.point ⟨0, 5000, 20000⟩)).1 = .clear ∧
      routeFault holding.zones (routeStart holding) ⟨0, 5000000, 20000000⟩ = none) ∧
    (routeFault holding.zones (routeStart holding) ⟨30000000, 5000000, 20000000⟩).isSome = true ∧
    9 ≠ 65535 ∧ (10 : Nat) ∉ 9 :: [shot].map Entry.id ∧ (1 < 2 ∧ 63 < 64 ∧ positionFault ⟨0, 0, 80001⟩ = some 2) ∧
    ((queued flying [shot, running] true).queue.entries = [shot] ++ [running] ∧ running.leads = true ∧
      running.bound = some ⟨⟨30000000, 5000000, 20000000⟩, none⟩ ∧ shot.leads = false ∧ holding.path.isSome = true ∧
      markAt (marked loaded).marks 63 = some shotMark) := by decide +kernel

/-- Table 4-2: a route of length 0, the first row's cruise and the third row's turn. -/
theorem witness_MoveAddJoinsTheTail_eta :
    rigSettings.accelRate = (20 : Nat) ∧ (rigSettings.speedCap * rigSettings.capTrim / 100).toNat = 8000 ∧
    (∀ m : Nat, (0 : Int) ≤ (m : Int) * m → 0 ≤ m) ∧
    (∀ m : Nat, (20000000 : Int) ^ 2 ≤ (m : Int) * m → 20000000 ≤ m) ∧
    (8000 ≤ 400 * 20 ∧ 400 * 20 < 8000 + 20 ∧ 4 * 20 * 400 * (400 + 1) ≤ 20000000 ∧
      20000000 ≤ 4 * 20 * 400 * (400 + 1) + 4 * 8000 * 224 ∧
      4 * 20 * 400 * (400 + 1) + 4 * 8000 * 224 < 20000000 + 4 * 8000) ∧
    (1000000 < 4 * 20 * 400 * (400 + 1) ∧ 4 * 20 * 111 * (111 + 1) ≤ 1000000 ∧ 1000000 < 4 * 20 * (111 + 1) * (111 + 2) ∧
      1000000 ≤ 4 * 20 * (111 + 1) * (111 + 1) ∧ 4 * 20 * (111 + 1) * (111 + 1) < 1000000 + 4 * 20 * (111 + 1)) := by
  refine ⟨rfl, by decide, fun _ _ => Nat.zero_le _, fun m h => ?_, by decide, by decide⟩
  by_contra c
  have : (m : Int) ≤ 19999999 := by omega
  nlinarith

/-- A move to a point that is CLEAR and a route that is clear of zone 7, and one whose target lies in it. -/
def near : Entry := { shot with target := .point ⟨0, 5000, 20000⟩ }

def nearBound : Bound := ⟨⟨0, 5000000, 20000000⟩, none⟩

def inside : Entry := { shot with target := .point ⟨12000, 0, 5000⟩ }

/-- `next` behind a head. -/
def behind (e : Entry) : Entry := { e with id := 2, serial := 2 }

theorem near_aims (s : State) (h : s.zones = holding.zones) : near.aims s nearBound.point nearBound.cap .clear :=
  .inr ⟨_, rfl, rfl, rfl, by rw [h]; decide +kernel⟩

/-- A start succeeds alone, and with an entry behind it that its look-ahead finds BLOCKED; one fails on its target and one
on its route, and the entry behind stays. -/
theorem starts_each_way (es : List Entry) (flag : Bool) :
    let s := inMode .travel (queued holding es flag)
    let run := { near with state := .running, bound := some nearBound }
    (∃ news, HeadStarts s near [] [run] news none) ∧
    (∃ news, HeadStarts s near [behind inside] [run, { behind inside with lookAhead := .blocked }] news none ∧ news.length = 2) ∧
    (∃ news, HeadStarts s inside [behind near] [behind near] news (some .drop)) ∧
    ∃ news, HeadStarts s shot [behind near] [behind near] news (some .drop) := by
  have clear : routeFault holding.zones ⟨0, 0, 20000000⟩ nearBound.point = none := by decide +kernel
  have inside_aims : (behind inside).aims (inMode .travel (queued holding es flag)) ⟨12000000, 0, 5000000⟩ none .blocked :=
    .inr ⟨_, rfl, rfl, rfl, by show _ = (markTest holding.zones _).1; decide +kernel⟩
  refine ⟨⟨_, _, nearBound, .clear, rfl, near_aims _ rfl, by simp, .inr (.inr ⟨rfl, clear, rfl, .inl ⟨rfl, rfl, rfl⟩⟩)⟩,
    ⟨_, ⟨_, nearBound, .clear, rfl, near_aims _ rfl, by decide, .inr (.inr ⟨rfl, clear, rfl, .inr
      ⟨behind inside, [], .blocked, rfl, ⟨_, _, _, inside_aims, by simp⟩, rfl, rfl⟩⟩)⟩, rfl⟩,
    ⟨_, _, ⟨⟨12000000, 0, 5000000⟩, none⟩, .blocked, rfl,
      .inr ⟨_, rfl, rfl, rfl, by show _ = (markTest holding.zones _).1; decide +kernel⟩, by decide,
      .inl ⟨rfl, rfl, rfl, rfl⟩⟩,
    ⟨_, _, ⟨⟨30000000, 5000000, 20000000⟩, none⟩, .clear, rfl,
      .inr ⟨_, rfl, rfl, rfl, by show _ = (markTest holding.zones _).1; decide +kernel⟩, by decide,
      .inr (.inl ⟨7, 1, rfl, ?_, rfl, rfl, rfl⟩)⟩⟩
  show routeFault holding.zones ⟨0, 0, 20000000⟩ ⟨30000000, 5000000, 20000000⟩ = some (7, 1)
  decide +kernel

theorem witness_TravelBegunAndCueStartHead :
    let begun (es : List Entry) : State := { inMode .travel (queued holding es false) with
      hands := { Hands.none with travel := [.begun 2] } }
    let cued (es : List Entry) : State := inMode .travel (queued holding es true)
    let cue : Entry := { near with release := .cue }
    let h : Entry := { near with state := .armed }
    ((begun []).marksSettled = true ∧ (begun []).hands.travel = .begun 2 :: [] ∧
      BecomesHead (begun []) (begun []).queue.entries [] [] (some .empty)) ∧
    (∃ es news, BecomesHead (begun [cue, behind near]) (begun [cue, behind near]).queue.entries es news none) ∧
    (∃ es news, BecomesHead (begun [near, behind inside]) (begun [near, behind inside]).queue.entries es news none) ∧
    (∃ es news, BecomesHead (begun [inside, behind near]) (begun [inside, behind near]).queue.entries es news (some .drop)) ∧
    ((cued [h, behind near]).marksSettled = true ∧ (cued [h, behind near]).queue.entries = h :: [behind near] ∧
      h.state = .armed ∧ (cued [h, behind near]).queue.travelFlag = true) ∧
    ((queued holding [near] false).queue.travelFlag = false ∧ (cued [running]).queue.travelFlag = true ∧
      running.state ≠ .armed) := by
  obtain ⟨-, ⟨n1, h1, -⟩, ⟨n2, h2⟩, -⟩ := starts_each_way [near, behind inside] false
  refine ⟨⟨by decide +kernel, rfl, .inl ⟨rfl, rfl, rfl, rfl⟩⟩, ⟨_, _, .inr ⟨_, _, rfl, .inl ⟨rfl, rfl, rfl, rfl⟩⟩⟩,
    ⟨_, n1, .inr ⟨_, _, rfl, .inr ⟨rfl, h1⟩⟩⟩, ⟨_, n2, .inr ⟨_, _, rfl, .inr ⟨rfl, h2⟩⟩⟩, by decide +kernel, by decide +kernel⟩

theorem witness_StepResultDrivesTheHead :
    let took (r : StepResult) (es : List Entry) (s : State) : State := { queued s es true with
      hands := { Hands.none with stepQueue := some r } }
    let stood := restAt false .braked true
    let came := restAt true .atRest true
    let dwelling (n : Nat) : Entry := { running with state := .dwelling, remaining := n, dwell := 15000 }
    let next : Entry := { behind near with release := .cue }
    ((took came [running] flying).marksSettled = true ∧ (took came [running] flying).hands.stepQueue = some came) ∧
    (took came [] offline).rigged = false ∧
    ((took came [] flying).rigged = true ∧ (took came [] flying).queue.entries = []) ∧
    (took came [running] flying).queue.travelFlag = true ∧
    (shot.state = .queued ∧ running.state = .running ∧ came.arrival = true ∧ 0 < (dwelling 1).dwell ∧ running.dwell = 0) ∧
    (stood.arrival = false ∧ stood.verdict = .braked ∧ stood.atRest = true ∧ running.stall ≠ 249 ∧
      ¬((restAt false .accepted false).verdict = .braked ∧ (restAt false .accepted false).atRest = true)) ∧
    (({ running with stall := 249 } : Entry).stall = 249 ∧ (dwelling 1).state = .dwelling ∧ 1 < (dwelling 2).remaining ∧
      (dwelling 1).remaining = 1 ∧ (dwelling 0).remaining = 0) ∧
    ((took came [dwelling 1, next] flying).queue.entries = dwelling 1 :: next :: [] ∧
      (∀ x ∈ [next], x.serial ≠ (dwelling 1).serial) ∧ (∀ x ∈ [next], x.serial ≠ running.serial)) ∧
    BecomesHead (took came [running] flying) [] [] [] (some .empty) ∧
    (∃ es news, BecomesHead (took came [running, next] flying) [next] es news none) ∧
    (∃ es news, BecomesHead (took came [running, behind near] holding) [behind near] es news none) ∧
    ∃ es news, BecomesHead (took came [running, behind inside, { near with serial := 3 }] holding)
      [behind inside, { near with serial := 3 }] es news (some .drop) := by
  have clear : routeFault holding.zones ⟨0, 0, 20000000⟩ nearBound.point = none := by decide +kernel
  refine ⟨by decide +kernel, by decide +kernel, by decide +kernel, rfl, by decide +kernel, by decide +kernel, by decide +kernel,
    by decide +kernel, .inl ⟨rfl, rfl, rfl, rfl⟩, ⟨_, _, .inr ⟨_, _, rfl, .inl ⟨rfl, rfl, rfl, rfl⟩⟩⟩,
    ⟨_, _, .inr ⟨_, _, rfl, .inr ⟨rfl, _, nearBound, .clear, rfl, near_aims _ rfl, by simp,
      .inr (.inr ⟨rfl, clear, rfl, .inl ⟨rfl, rfl, rfl⟩⟩)⟩⟩⟩,
    ⟨_, _, .inr ⟨_, _, rfl, .inr ⟨rfl, _, ⟨⟨12000000, 0, 5000000⟩, none⟩, .blocked, rfl,
      .inr ⟨_, rfl, rfl, rfl, by show _ = (markTest holding.zones _).1; decide +kernel⟩, by decide,
      .inl ⟨rfl, rfl, rfl, rfl⟩⟩⟩⟩⟩

/-- R74, R77, R86: a move without dwell arrives and completes, and an IMMEDIATE one behind it starts in the same event. -/
theorem test_arrival_starts_next :
    after .queueStepResult { queued holding [running, behind near] true with
        hands := { Hands.none with stepQueue := some (restAt true .atRest true) } }
      (fun t => (t.queue.entries.map (fun e => (e.serial, e.state)), t.hands.ends,
        t.rig.notices.map (fun n => n.body.take 6))) =
      some ([(2, .running)], [], [[5, 6, 0, 0, 0, 1], [5, 7, 0, 0, 0, 1], [5, 3, 0, 0, 0, 1]]) := by decide +kernel

/-- R75, R79: a stall leaves the entry behind it QUEUED. -/
theorem test_stall_keeps_rest :
    after .queueStepResult { queued holding [{ running with stall := 249 }, behind near] true with
        hands := { Hands.none with stepQueue := some (restAt false .braked true) } }
      (fun t => (t.queue.entries.map (fun e => (e.serial, e.state)), t.hands.ends.map EndHand.reason,
        t.rig.notices.map (fun n => n.body.take 6))) =
      some ([(2, .queued)], [.stall], [[5, 8, 0, 0, 0, 1]]) := by decide +kernel

theorem witness_EntriesReturnOrLeave :
    let ended (es : List Entry) : State := { queued holding es true with hands := { Hands.none with travel := [.ended] } }
    let second : Entry := { shot with id := 65535, serial := 2 }
    let third : Entry := { shot with id := 3, serial := 3 }
    let armed : Entry := { shot with state := .armed }
    let dwelling : Entry := { running with state := .dwelling }
    ((ended []).marksSettled = true ∧ (ended []).hands.travel = .ended :: [] ∧ (ended []).queue.entries = []) ∧
    ((ended [running, second]).queue.entries = running :: [second] ∧ running.markRetired = false ∧
      shot.state = .queued ∧ armed.state = .armed ∧ (∀ x ∈ [second], x.serial ≠ running.serial) ∧
      ({ running with markRetired := true } : Entry).markRetired = true ∧ dwelling.state = .dwelling) ∧
    (offline.carrier.mode = .offline ∧ holding.carrier.mode ≠ .offline ∧ (∀ e ∈ [shot], e.id ≠ 65535) ∧
      holding.takes .rig (.moveCancel .rig 0 65535) = true ∧ holding.takes .safety (.queueClear .safety 0) = true ∧
      holding.takes .rig (.queueList .rig 0) = true) ∧
    ((queued holding [shot, second, third] false).queue.entries = [shot] ++ second :: [third] ∧ second.id = 65535 ∧
      (∀ x ∈ [shot], x.id ≠ 65535) ∧ (∀ x ∈ [shot] ++ [third], x.serial ≠ second.serial) ∧ second.state = .queued ∧
      (∀ x ∈ [shot].head?, x.lookAhead = .unchecked ∧ (x.leads = false ∨ 2 ≤ [shot].length)) ∧ [shot] ≠ []) ∧
    (2 ≤ [running, second].length ∧ running.lookAhead = .unchecked) ∧
    (queued flying [running] true).queue.entries = [] ++ running :: [] ∧
    (queued flying [dwelling] true).queue.travelFlag = true ∧
    (let s := queued flying [running, second, third] true;
      s.queue.entries = [running] ++ second :: [third] ∧ running.leads = true ∧ running.serial ≠ third.serial ∧
        third.foresees s ⟨30000000, 5000000, 20000000⟩ .clear) ∧
    (let far : Entry := { third with target := .point ⟨60000, 0, 5000⟩ };
      far.foresees (queued flying [running, second, far] true) ⟨30000000, 5000000, 20000000⟩ .blocked) ∧
    (let s := queued flying [dwelling, second, third] true;
      s.path.isSome = true ∧ second.release = .immediate ∧ ([second, third].map Entry.serial).Nodup ∧
        second.aims s ⟨30000000, 5000000, 20000000⟩ none .clear ∧ ({ second with release := .cue } : Entry).release = .cue) ∧
    routeFault holding.zones ⟨10000000, 5000000, 20000000⟩ ⟨30000000, 5000000, 20000000⟩ = some (7, 1) ∧
    (({ second with target := .point ⟨12000, 0, 5000⟩ } : Entry).aims flying ⟨12000000, 0, 5000000⟩ none .blocked) ∧
    routeFault [envelope] ⟨10000000, 5000000, 20000000⟩ ⟨30000000, 5000000, 20000000⟩ = none := by
  refine ⟨by decide +kernel, by decide +kernel, by decide +kernel, by decide +kernel, by decide +kernel,
    by decide +kernel, by decide +kernel, ⟨rfl, by decide, by decide, ?_⟩, ?_,
    ⟨by decide +kernel, by decide, by decide, ?_, rfl⟩, by decide +kernel, ?_, by decide +kernel⟩
  · exact ⟨_, _, _, .inr ⟨_, rfl, rfl, rfl, rfl⟩, by decide +kernel⟩
  · exact ⟨_, _, _, .inr ⟨_, rfl, rfl, rfl, rfl⟩, by decide +kernel⟩
  · exact .inr ⟨_, rfl, rfl, rfl, by decide +kernel⟩
  · exact .inr ⟨_, rfl, rfl, rfl, by decide +kernel⟩

/-- A report on an ARMED head, on a RUNNING one, and of both other kinds. -/
theorem witness_MarkReportsReachTheQueue :
    let told (r : MarkReport) (es : List Entry) : State := { queued flying es true with
      hands := { Hands.none with markReports := [r] } }
    let armed : Entry := { shot with target := .mark 63, state := .armed }
    let led : Entry := { running with target := .mark 63 }
    let waiting : Entry := { shot with target := .mark 63, serial := 2, id := 2, lookAhead := .clear }
    ((told (.retired 63) [armed]).hands.changes = [] ∧ (told (.retired 63) [armed]).hands.markReports = .retired 63 :: [] ∧
      armed.target = .mark 63 ∧ armed.state = .armed ∧ led.leads = true ∧ waiting.leads = false) ∧
    (told (.retired 63) [armed]).queue.shaped ∧ (told (.retired 63) [led, waiting]).queue.shaped ∧
    (told (.replaced 63) [armed]).queue.shaped ∧ (told (.changed [(63, .blocked)]) [waiting]).queue.entries = waiting :: [] ∧
    (let third : Entry := { shot with serial := 3, id := 3 };
      (told (.retired 63) [running, waiting, third]).queue.shaped ∧
        third.foresees (told (.retired 63) [running, waiting, third]) ⟨30000000, 5000000, 20000000⟩ .clear) ∧
    (let s := clearMarked (told (.changed [(63, .clear)]) [running, waiting]);
      s.queue.entries = running :: waiting :: [] ∧ waiting.foresees s ⟨30000000, 5000000, 20000000⟩ .clear) := by
  refine ⟨by decide +kernel, ?_, ?_, ?_, by decide +kernel, ⟨?_, ?_⟩, rfl, ?_⟩
  · exact ⟨by decide +kernel, by decide +kernel, fun _ => rfl, rfl, rfl, by simp, trivial⟩
  · exact ⟨by decide +kernel, by decide +kernel, fun _ => rfl, rfl, rfl, by decide +kernel, by decide +kernel, by simp⟩
  · exact ⟨by decide +kernel, by decide +kernel, fun _ => rfl, rfl, rfl, by simp, trivial⟩
  · exact ⟨by decide +kernel, by decide +kernel, fun _ => rfl, rfl, rfl, by decide +kernel, by decide +kernel,
      by decide +kernel⟩
  · exact ⟨_, _, _, .inr ⟨_, rfl, rfl, rfl, rfl⟩, by decide +kernel⟩
  · exact ⟨_, _, _, .inl ⟨63, _, rfl, rfl, rfl, rfl, rfl⟩, by decide +kernel⟩

/-! ## Witnesses: the request ports -/

theorem witness_ReceiverTakesCharacters :
    let f : RawFrame := ⟨0x13, 1, []⟩
    (holding.port .rig).receiver = .hunting ∧ 240 < (241 : Byte).toNat ∧ ¬240 < (240 : Byte).toNat ∧
    (Receiver.tag 0 1 = .tag 0 1 ∧ Receiver.tag 240 1 = .tag 240 1) ∧ Receiver.body 1 1 1 [] = .body 1 1 1 [] ∧
    (let c := crc f.covered; c = c.extractLsb' 8 8 ++ c.extractLsb' 0 8) ∧ crc f.covered ≠ (0 : Byte) ++ (0 : Byte) := by
  decide +kernel

def framed (r : PortRec) (f : RawFrame) : PortRec := { r with completed := [f] }

/-- A port with a listing in service. -/
def listing (as : List Answer) : State := { holding with
  rig := { PortRec.reset with service := some ⟨.queue 0, 2, 255⟩, answers := as } }

theorem witness_RequestStagePassesOrRefuses :
    let list : Service := ⟨.queue 0, 2, 255⟩
    let r := framed PortRec.reset ⟨0x60, 1, []⟩
    r.completed = ⟨0x60, 1, []⟩ :: [] ∧ ({ r with passed := some .freeze } : PortRec).passed = some .freeze ∧
    r.passed = none ∧ 4 ≤ (List.replicate 4 (closing 0 .ok 0 0)).length ∧
    (List.replicate 3 (closing 0 .ok 0 0)).length < 4 ∧ decodeRequest .rig ⟨0, 1, []⟩ = .unknownKind ∧
    decodeRequest .rig ⟨0x60, 1, [0]⟩ = .badLength ∧ decodeRequest .rig ⟨0x60, 1, []⟩ = .request (.abort .rig 1) ∧
    decodeRequest .rig ⟨0x43, 1, []⟩ = .request (.queueList .rig 1) ∧ r.service = none ∧
    ({ r with service := some list } : PortRec).service = some list ∧ PortRec.reset.completed = [] ∧
    (holding.port .rig).service = none ∧ list.work.isListing = true ∧ list.sent < 256 ∧
    ((checking 63 none).port .rig).service = some ⟨.laneCheck 7, 3, 0⟩ ∧
    ((checking 63 none).tension.lanes.get 7).check = some ⟨none, 63⟩ ∧
    (holding.takes .rig (.abort .rig 1) = true ∧ (listing []).takes .rig (.abort .rig 1) = true ∧
      (checking 63 none).takes .rig (.abort .rig 1) = true) ∧
    (encodeRequest (.queueList .rig 1) = some (.rig, ⟨0x43, 1, []⟩) ∧ Instr.wellFormed (.queueList .rig 1) = true ∧
      (crowded.port .rig).passed ≠ some (.queueList .rig 1) ∧ (crowded.port .rig).passed ≠ none ∧
      ((listing []).port .rig).passed = none ∧ ((listing []).port .rig).completed = [] ∧
      (nextOf (exec (.requestFrame .rig) (holding.setPort .rig (framed PortRec.reset ⟨0x43, 1, []⟩)))).isSome = true) := by
  decide +kernel

/-- R169 step 4, R170: a request that comes while a listing is in service is answered BUSY with its kind, and the listing
stays; ABORT, STEER and HALT reach their owners. -/
theorem test_busy_keeps_service :
    after (.markList .rig 9 0) (listing []) (fun t => (t.rig.service, t.rig.answers)) =
      some (some ⟨.queue 0, 2, 255⟩, [closing 9 .busy 0x43 0]) ∧
    after (.halt .rig 9) (listing []) (fun t => (t.rig.service, t.carrier.causes)) =
      some (some ⟨.queue 0, 2, 255⟩, [.request]) ∧
    after (.abort .rig 9) (listing []) (fun t => (t.rig.service, t.rig.answers)) =
      some (none, [closing 2 .aborted 255 0, closing 9 .ok 1 0]) := by decide +kernel

/-- R169 step 1, R172: with 3 answers waiting a request is taken, with 4 it is discarded. -/
theorem test_full_discards :
    let s (n : Nat) : State := { loaded with rig := { PortRec.reset with answers := List.replicate n (closing 0 .ok 0 0) } }
    after (.queueClear .rig 9) (s 3) (fun t => (t.queue.entries.length, t.rig.answers.length)) = some (0, 4) ∧
    nextOf (exec (.queueClear .rig 9) (s 4)) = some (s 4) := by decide +kernel

/-- R169: a request behind a frame that waits comes after it. -/
theorem test_waits_its_turn :
    after (.queueClear .rig 9) { loaded with rig := framed PortRec.reset ⟨0x44, 8, []⟩ }
      (fun t => (t.queue.entries.length, t.rig.completed)) = some (1, [⟨0x44, 8, []⟩, ⟨0x42, 9, []⟩]) := by decide +kernel

theorem witness_LineServesClassesInOrder :
    let a : Answer := closing 1 .ok 0 0
    let n : Notice := .queue .cleared 0
    ([a].head? = some a ∧ a.items = [] ∧ (closingItem 1 (.zone stand) .ok 7 0).items = .zone stand :: []) ∧
    (PortRec.reset.answers = [] ∧ ({ PortRec.reset with notices := [n] } : PortRec).notices = n :: []) ∧
    (envelope ∈ holding.zones ∧ 0 < envelope.number ∧ ZoneFilter.admits .all envelope = true ∧
      holding.zones.Pairwise (fun x y => x.number < y.number) ∧
      ∀ y ∈ holding.zones, 0 < y.number → ZoneFilter.admits .all y = true → envelope.number ≤ y.number) ∧
    ((∀ z ∈ holding.zones, 7 < z.number → ZoneFilter.admits .all z = false) ∧ 255 < 256) ∧
    (shotMark ∈ (marked holding).marks ∧ (∀ k, some 62 = some k → k < shotMark.number) ∧
      MarkFilter.admits (.state .blocked) shotMark = true ∧ (marked holding).marks.Pairwise (fun x y => x.number < y.number) ∧
      ∀ y ∈ (marked holding).marks, (∀ k, some 62 = some k → k < y.number) → MarkFilter.admits (.state .blocked) y = true →
        shotMark.number ≤ y.number) ∧
    (∀ m ∈ (marked holding).marks, (∀ k, some 63 = some k → k < m.number) → MarkFilter.admits .all m = false) ∧
    (loaded.queue.entries = [] ++ shot :: [] ∧ 0 < shot.serial ∧ ∀ e ∈ loaded.queue.entries, e.serial ≤ shot.serial) ∧
    (let s := queued holding [running, { shot with serial := 2 }] true;
      s.queue.entries = [running] ++ { shot with serial := 2 } :: [] ∧ (∀ x ∈ [running], x.serial ≤ 1) ∧ 1 < 2) ∧
    (((checking 0 none).port .rig).service = some ⟨.laneCheck 7, 3, 0⟩ ∧ ((checking 0 none).port .rig).due = false) ∧
    ({ PortRec.reset with due := true } : PortRec).due = true ∧ PortRec.reset.due = false ∧
    (({ PortRec.reset with interval := 0 } : PortRec).interval = 0 ∧ PortRec.reset.interval ≠ 0 ∧ 1 < 2 ∧ 1 ≤ 1) := by
  decide +kernel

end Sys2Proof.Tests
end

section
namespace Sys2Proof.Proofs
open Sys2Proof.Machine

/-! ## Hard reset (R6) -/

/-- Settles O4: the reset record is read off field by field. -/
theorem hardResetLeavesResetState : Obligations.HardResetLeavesResetState := by
  intro lines s
  exact ⟨_, rfl, rfl, by simp [State.resetWith, Settings.reset, PortRec.reset, Carrier.reset, MoveQueue.reset,
    Wind.reset, Tension.reset, Bus.reset]⟩

end Sys2Proof.Proofs
end

section
namespace Sys2Proof.Proofs
open Sys2Proof.Machine

/-! ## The stopping distance (R125) -/

/-- The product of R125 is even, so its half loses nothing. -/
theorem two_mul_half_product (b q : Int) : 2 * (b * (q * (q + 1)) / 2) = b * (q * (q + 1)) :=
  Int.mul_ediv_cancel' (Dvd.dvd.mul_left (even_iff_two_dvd.1 (Int.even_mul_succ_self q)) b)

/-- Braking once from a speed of at least `b` takes one from the quotient. -/
theorem quotient_sub_rate (b u : Int) (hb : 0 < b) : (u - b) / b = u / b - 1 := by
  rw [Int.sub_ediv_of_dvd u (dvd_refl b), Int.ediv_self hb.ne']

/-- One braking step covers `4 (u - b)`, and the rest is the stopping distance of the speed it leaves. -/
theorem stopDistance_brake (b u : Int) (hb : 0 < b) :
    4 * (u - b) + stopDistance b (u - b) = stopDistance b u := by
  have low := two_mul_half_product b (u / b - 1)
  have high := two_mul_half_product b (u / b)
  simp only [stopDistance, quotient_sub_rate b u hb]
  linear_combination 2 * high - 2 * low

theorem stopDistance_below_rate (b u : Int) (hu : 0 ≤ u) (h : u < b) : stopDistance b u = 0 := by
  simp [stopDistance, Int.ediv_eq_zero_of_lt hu h]

/-- A speed faster by 1 stops `4 (u / b)` later: by 4 for each braking step that it still makes. -/
theorem stopDistance_succ (b u : Int) (hb : 0 < b) : stopDistance b (u + 1) = stopDistance b u + 4 * (u / b) := by
  have whole := Int.mul_ediv_add_emod u b
  have rest := Int.emod_nonneg u hb.ne'
  have small := Int.emod_lt_of_pos u hb
  rcases (show u % b + 1 < b ∨ u % b + 1 = b by omega) with h | h
  · have same : (u + 1) / b = u / b := by
      rw [Int.ediv_eq_iff_of_pos hb]; constructor <;> nlinarith
    simp only [stopDistance, same]
    ring
  · have next : (u + 1) / b = u / b + 1 := by
      rw [Int.ediv_eq_iff_of_pos hb]; constructor <;> nlinarith
    have low := two_mul_half_product b (u / b)
    have high := two_mul_half_product b (u / b + 1)
    simp only [stopDistance, next]
    linear_combination 2 * low - 2 * high - 4 * whole + 4 * h

theorem stopDistance_mono (b u w : Int) (hb : 0 < b) (hu : 0 ≤ u) (h : u ≤ w) : stopDistance b u ≤ stopDistance b w := by
  induction w, h using Int.leInduction with
  | base => exact le_rfl
  | succ w huw ih =>
    rw [stopDistance_succ b w hb]
    have := Int.ediv_nonneg (hu.trans huw) hb.le
    omega

/-- R125: the distance is what the braking steps cover, one after another. -/
theorem stopDistance_eq_sum (b : Int) (hb : 0 < b) (n : Nat) (u : Int) (hn : u / b = n) :
    stopDistance b u = ((List.range n).map (fun k : Nat => 4 * (u - ((k : Int) + 1) * b))).sum := by
  induction n generalizing u with
  | zero => simp [stopDistance, hn]
  | succ n ih =>
    have rest : ((List.range n).map (fun k : Nat => 4 * (u - b - ((k : Int) + 1) * b)))
        = (List.range n).map (fun k : Nat => 4 * (u - (((k + 1 : Nat) : Int) + 1) * b)) := by
      congr 1; funext k; push_cast; ring
    rw [← stopDistance_brake b u hb, ih (u - b) (by rw [quotient_sub_rate b u hb, hn]; push_cast; ring),
      List.range_succ_eq_map, List.map_cons, List.map_map, List.sum_cons, rest]
    simp [Function.comp_def]

/-- Braking by less than the rate covers no less than braking fully. -/
theorem stopDistance_le_lighter_brake (b u a : Int) (hb : 0 < b) (hu : 0 ≤ u) (ha : 0 ≤ a) (hab : a < b) (hau : a ≤ u) :
    stopDistance b u ≤ 4 * (u - a) + stopDistance b (u - a) := by
  rcases lt_or_ge u b with h | h
  · rw [stopDistance_below_rate b u hu h, stopDistance_below_rate b (u - a) (by omega) (by omega)]
    omega
  · have := stopDistance_mono b (u - b) (u - a) hb (by omega) (by omega)
    rw [← stopDistance_brake b u hb]
    omega

/-- Twice the quotient times what the rate leaves of the speed with its rest. -/
theorem stopDistance_closed (b u : Int) : stopDistance b u = 2 * (u / b) * (u + u % b - b) := by
  have whole := Int.mul_ediv_add_emod u b
  have half := two_mul_half_product b (u / b)
  simp only [stopDistance]
  linear_combination -2 * half - 2 * (u / b) * whole

theorem stopDistance_greatest (b u : Int) (hb : 0 < b) (hu : 0 ≤ u) (top : u ≤ 10000) : stopDistance b u ≤ 199980000 := by
  have rest := Int.emod_lt_of_pos u hb
  have q0 := Int.ediv_nonneg hu hb.le
  have qu : u / b ≤ u := Int.ediv_le_self b hu
  rw [stopDistance_closed]
  rcases eq_or_lt_of_le hu with rfl | pos
  · simp
  · have step : u / b * (u + u % b - b) ≤ u / b * (u - 1) := mul_le_mul_of_nonneg_left (by omega) q0
    have most : u / b * (u - 1) ≤ 10000 * 9999 := mul_le_mul (by omega) (by omega) (by omega) (by norm_num)
    linarith

/-! ## The line length (R3, R4) -/

/-- R4: the rounded root of a square sum lies within half a micrometre of its root. -/
theorem roundedRoot_spec (d : Int) (hd : 0 ≤ d) :
    0 ≤ roundedRoot d ∧ (0 < roundedRoot d → (2 * roundedRoot d - 1) ^ 2 ≤ 4 * d) ∧
      4 * d < (2 * roundedRoot d + 1) ^ 2 := by
  obtain ⟨low, high⟩ := Laws.floorSqrt_spec d.toNat
  zify [Int.toNat_of_nonneg hd] at low high
  simp only [roundedRoot]
  split <;> refine ⟨by omega, fun _ => ?_, ?_⟩ <;> nlinarith

/-- A number whose square is at least `d` is no smaller than its rounded root, and one at most `d` no greater. -/
theorem roundedRoot_bounds (d m : Int) (hd : 0 ≤ d) (hm : 0 ≤ m) :
    (d ≤ m * m → roundedRoot d ≤ m) ∧ (m * m ≤ d → m ≤ roundedRoot d) := by
  obtain ⟨l0, low, high⟩ := roundedRoot_spec d hd
  constructor <;> intro h <;> by_contra! c
  · have := low (by omega); nlinarith
  · nlinarith

/-- The squared distance, written out (R4 step 1). -/
theorem squaredDistance_eq (anchor pose : Vec3) : squaredDistance anchor pose =
    (pose.x - 1000 * anchor.x) ^ 2 + (pose.y - 1000 * anchor.y) ^ 2 + (pose.z - 1000 * anchor.z) ^ 2 := by
  simp only [squaredDistance, Vec.sq, Vec.sub, Vec.micro, Vec.scale]
  ring

/-- Settles O18: the recurrence of one braking step carries the sum, the bounds and the monotony; the line length is the
rounded root of the squared distance. -/
theorem stoppingDistanceAndLineLengthAreExact : Obligations.StoppingDistanceAndLineLengthAreExact := by
  refine ⟨fun b u hb hu => ⟨rfl, ?_, fun _ => stopDistance_brake b u hb, stopDistance_below_rate b u hu,
    fun w h => ?_, fun a => stopDistance_le_lighter_brake b u a hb hu, stopDistance_greatest b u hb hu⟩, ?_⟩
  · rw [stopDistance_eq_sum b hb _ u (Int.toNat_of_nonneg (Int.ediv_nonneg hu hb.le)).symm]
    simp [List.map_eq_flatMap, List.flatMap_assoc]
  · have := stopDistance_mono b u w hb hu h
    exact ⟨this, by omega⟩
  · intro anchor pose d l
    have hd : 0 ≤ d := by positivity
    have hl : l = roundedRoot d := congrArg roundedRoot (squaredDistance_eq anchor pose)
    obtain ⟨l0, low, high⟩ := roundedRoot_spec d hd
    rw [hl]
    exact ⟨l0, low, high, fun m hm => (roundedRoot_bounds d m hd hm).1, fun n hn => (roundedRoot_bounds d n hd hn).2⟩

end Sys2Proof.Proofs
end

section
namespace Sys2Proof.Proofs
open Sys2Proof.Machine

/-! ## The line-range test (R5) -/

theorem squaredDistance_axes (anchor p : Vec3) : squaredDistance anchor p =
    (p.x - 1000 * anchor.x) * (p.x - 1000 * anchor.x) + (p.y - 1000 * anchor.y) * (p.y - 1000 * anchor.y)
      + (p.z - 1000 * anchor.z) * (p.z - 1000 * anchor.z) := rfl

/-- The far square is the square at one of the ends. -/
theorem farSquare_attained (a lo hi : Int) : ∃ c, (c = lo ∨ c = hi) ∧ farSquare a lo hi = (c - a) * (c - a) := by
  rcases max_choice ((lo - a) * (lo - a)) ((hi - a) * (hi - a)) with h | h
  · exact ⟨lo, .inl rfl, h⟩
  · exact ⟨hi, .inr rfl, h⟩

theorem le_farSquare (a lo hi c : Int) (h : c = lo ∨ c = hi) : (c - a) * (c - a) ≤ farSquare a lo hi := by
  rcases h with rfl | rfl
  · exact le_max_left _ _
  · exact le_max_right _ _

/-- The near square is the square at a point of the interval. -/
theorem nearSquare_attained (a lo hi : Int) (h : lo ≤ hi) :
    ∃ c, lo ≤ c ∧ c ≤ hi ∧ nearSquare a lo hi = (c - a) * (c - a) := by
  refine ⟨if a < lo then lo else if a > hi then hi else a, ?_, ?_, rfl⟩ <;> split_ifs <;> omega

theorem nearSquare_le (a lo hi c : Int) (hl : lo ≤ c) (hh : c ≤ hi) : nearSquare a lo hi ≤ (c - a) * (c - a) := by
  unfold nearSquare
  dsimp only
  split_ifs with below above
  · nlinarith
  · nlinarith
  · nlinarith [mul_self_nonneg (c - a)]

theorem mem_corners (b : Box) (q : Vec3) : q ∈ b.corners ↔
    (q.x = b.lo.x ∨ q.x = b.hi.x) ∧ (q.y = b.lo.y ∨ q.y = b.hi.y) ∧ (q.z = b.lo.z ∨ q.z = b.hi.z) := by
  obtain ⟨x, y, z⟩ := q
  simp only [Box.corners, List.mem_cons, List.not_mem_nil, or_false, Vec3.mk.injEq]
  tauto

theorem holds_iff (b : Box) (q : Vec3) : b.holds q = true ↔
    b.lo.x ≤ q.x ∧ q.x ≤ b.hi.x ∧ b.lo.y ≤ q.y ∧ q.y ≤ b.hi.y ∧ b.lo.z ≤ q.z ∧ q.z ≤ b.hi.z := by
  simp only [Box.holds, Box.contains, Bool.and_eq_true, decide_eq_true_eq, and_assoc]
  exact Iff.rfl

/-- The sum of the far squares bounds a number exactly when every corner's squared distance does. -/
theorem farSquares_le_iff (anchor : Vec3) (b : Box) (n : Int) :
    farSquare (1000 * anchor.x) b.lo.x b.hi.x + farSquare (1000 * anchor.y) b.lo.y b.hi.y
        + farSquare (1000 * anchor.z) b.lo.z b.hi.z ≤ n ↔
      ∀ q ∈ b.corners, squaredDistance anchor q ≤ n := by
  constructor
  · intro h q hq
    obtain ⟨hx, hy, hz⟩ := (mem_corners b q).1 hq
    have := le_farSquare (1000 * anchor.x) _ _ _ hx
    have := le_farSquare (1000 * anchor.y) _ _ _ hy
    have := le_farSquare (1000 * anchor.z) _ _ _ hz
    rw [squaredDistance_axes]
    linarith
  · intro h
    obtain ⟨x, hx, ex⟩ := farSquare_attained (1000 * anchor.x) b.lo.x b.hi.x
    obtain ⟨y, hy, ey⟩ := farSquare_attained (1000 * anchor.y) b.lo.y b.hi.y
    obtain ⟨z, hz, ez⟩ := farSquare_attained (1000 * anchor.z) b.lo.z b.hi.z
    rw [ex, ey, ez]
    exact h ⟨x, y, z⟩ ((mem_corners b _).2 ⟨hx, hy, hz⟩)

/-- The sum of the near squares is at least a number exactly when every point's squared distance is. -/
theorem le_nearSquares_iff (anchor : Vec3) (b : Box) (n : Int) (hb : b.inhabited) :
    n ≤ nearSquare (1000 * anchor.x) b.lo.x b.hi.x + nearSquare (1000 * anchor.y) b.lo.y b.hi.y
        + nearSquare (1000 * anchor.z) b.lo.z b.hi.z ↔
      ∀ q : Vec3, b.holds q = true → n ≤ squaredDistance anchor q := by
  obtain ⟨bx, byy, bz⟩ := hb
  constructor
  · intro h q hq
    obtain ⟨hx, hx', hy, hy', hz, hz'⟩ := (holds_iff b q).1 hq
    have := nearSquare_le (1000 * anchor.x) _ _ _ hx hx'
    have := nearSquare_le (1000 * anchor.y) _ _ _ hy hy'
    have := nearSquare_le (1000 * anchor.z) _ _ _ hz hz'
    rw [squaredDistance_axes]
    linarith
  · intro h
    obtain ⟨x, hx, hx', ex⟩ := nearSquare_attained (1000 * anchor.x) _ _ bx
    obtain ⟨y, hy, hy', ey⟩ := nearSquare_attained (1000 * anchor.y) _ _ byy
    obtain ⟨z, hz, hz', ez⟩ := nearSquare_attained (1000 * anchor.z) _ _ bz
    rw [ex, ey, ez]
    exact h ⟨x, y, z⟩ ((holds_iff b _).2 ⟨hx, hx', hy, hy', hz, hz'⟩)

theorem lineRangeAt_iff (anchor : Vec3) (lenMin lenMax : Int) (b : Box) (hb : b.inhabited) :
    lineRangeAt anchor lenMin lenMax b = true ↔
      (∀ q ∈ b.corners, squaredDistance anchor q ≤ (1000 * lenMax) ^ 2) ∧
      ∀ q : Vec3, b.holds q = true → (1000 * lenMin) ^ 2 ≤ squaredDistance anchor q := by
  simp only [pow_two, ← farSquares_le_iff, ← le_nearSquares_iff anchor b _ hb, lineRangeAt, Bool.and_eq_true,
    decide_eq_true_eq]
  exact Iff.rfl

/-! ## The slab test (R70) -/

/-- A fraction as a rational number. -/
def Frac.value (f : Frac) : ℚ := f.1 / f.2

theorem less_iff (f g : Frac) (hf : 0 < f.2) (hg : 0 < g.2) : Frac.less f g = true ↔ Frac.value f < Frac.value g := by
  have hf' : (0 : ℚ) < f.2 := by exact_mod_cast hf
  have hg' : (0 : ℚ) < g.2 := by exact_mod_cast hg
  rw [Frac.less, decide_eq_true_eq, Frac.value, Frac.value, div_lt_div_iff₀ hf' hg']
  exact_mod_cast Iff.rfl

/-- What the slab test keeps from axis to axis: fractions with positive denominators, and the points of the segment
that lie between them are those for which `inside` holds; none when there are no such points. -/
def Slab (fractions : Option (Frac × Frac)) (inside : ℚ → Prop) : Prop :=
  match fractions with
  | none => ∀ t, ¬inside t
  | some (enter, exit) => 0 < enter.2 ∧ 0 < exit.2 ∧ ∀ t, inside t ↔ Frac.value enter ≤ t ∧ t ≤ Frac.value exit

/-- The point the fraction `t` along an axis lies in the interval. -/
def onAxis (p e lo hi : Int) (t : ℚ) : Prop := lo ≤ p + t * e ∧ p + t * e ≤ hi

/-- The later of two entering fractions is the greater. -/
theorem later_spec (f g : Frac) (hf : 0 < f.2) (hg : 0 < g.2) :
    0 < (if Frac.less f g then g else f).2 ∧
      ∀ t, Frac.value (if Frac.less f g then g else f) ≤ t ↔ Frac.value f ≤ t ∧ Frac.value g ≤ t := by
  have key := less_iff f g hf hg
  split
  next h => exact ⟨hg, fun t => ⟨fun ht => ⟨(key.1 h).le.trans ht, ht⟩, And.right⟩⟩
  next h => exact ⟨hf, fun t => ⟨fun ht => ⟨ht, (not_lt.1 (fun c => h (key.2 c))).trans ht⟩, And.left⟩⟩

/-- The earlier of two leaving fractions is the lesser. -/
theorem earlier_spec (f g : Frac) (hf : 0 < f.2) (hg : 0 < g.2) :
    0 < (if Frac.less g f then g else f).2 ∧
      ∀ t, t ≤ Frac.value (if Frac.less g f then g else f) ↔ t ≤ Frac.value f ∧ t ≤ Frac.value g := by
  have key := less_iff g f hg hf
  split
  next h => exact ⟨hg, fun t => ⟨fun ht => ⟨ht.trans (key.1 h).le, ht⟩, And.right⟩⟩
  next h => exact ⟨hf, fun t => ⟨fun ht => ⟨ht, ht.trans (not_lt.1 (fun c => h (key.2 c)))⟩, And.left⟩⟩

/-- Where a segment moves along an axis, the fractions of the two faces. -/
theorem onAxis_iff (p e lo hi : Int) (he : e ≠ 0) :
    0 < (if e > 0 then (lo - p, e) else (p - hi, -e) : Frac).2 ∧ 0 < (if e > 0 then (hi - p, e) else (p - lo, -e) : Frac).2 ∧
    ∀ t, onAxis p e lo hi t ↔ Frac.value (if e > 0 then (lo - p, e) else (p - hi, -e)) ≤ t ∧
      t ≤ Frac.value (if e > 0 then (hi - p, e) else (p - lo, -e)) := by
  rcases lt_or_gt_of_ne he with neg | pos
  · have hq : (0 : ℚ) < -(e : ℚ) := by exact_mod_cast Int.neg_pos.2 neg
    simp only [if_neg (not_lt.2 neg.le), Frac.value]
    refine ⟨by simpa using neg, by simpa using neg, fun t => ?_⟩
    push_cast
    rw [div_le_iff₀ hq, le_div_iff₀ hq, onAxis]
    constructor <;> rintro ⟨h, h'⟩ <;> constructor <;> linarith
  · have hq : (0 : ℚ) < e := by exact_mod_cast pos
    simp only [if_pos pos, Frac.value]
    refine ⟨pos, pos, fun t => ?_⟩
    push_cast
    rw [div_le_iff₀ hq, le_div_iff₀ hq, onAxis]
    constructor <;> rintro ⟨h, h'⟩ <;> constructor <;> linarith

/-- One axis of the slab test keeps the points that lie in the interval on that axis too. -/
theorem slabAxis_spec (fractions : Option (Frac × Frac)) (inside : ℚ → Prop) (p e lo hi : Int) (h : Slab fractions inside) :
    Slab (slabAxis fractions p e lo hi) (fun t => inside t ∧ onAxis p e lo hi t) := by
  match fractions, h with
  | none, h => exact fun t ht => h t ht.1
  | some (enter, exit), ⟨h1, h2, h3⟩ =>
    unfold slabAxis
    dsimp only
    by_cases he : e = 0
    · have still : ∀ t, onAxis p e lo hi t ↔ lo ≤ p ∧ p ≤ hi := by
        intro t; simp [onAxis, he]
      rw [if_pos he]
      by_cases out : p < lo ∨ p > hi
      · rw [if_pos (by simpa using out)]
        exact fun t ht => by have := (still t).1 ht.2; omega
      · rw [if_neg (by simpa using out)]
        exact ⟨h1, h2, fun t => (and_congr (h3 t) (still t)).trans (and_iff_left (by omega))⟩
    · obtain ⟨d1, d2, d3⟩ := onAxis_iff p e lo hi he
      obtain ⟨l1, l2⟩ := later_spec _ _ h1 d1
      obtain ⟨e1, e2⟩ := earlier_spec _ _ h2 d2
      rw [if_neg he]
      refine ⟨l1, e1, fun t => (and_congr (h3 t) (d3 t)).trans ?_⟩
      rw [l2, e2, and_and_and_comm]

/-- A fraction `n / d` of the segment lies on the axis as the cross products say. -/
theorem onAxis_div (p e lo hi n d : Int) (hd : 0 < d) :
    onAxis p e lo hi ((n : ℚ) / d) ↔ d * lo ≤ d * p + n * e ∧ d * p + n * e ≤ d * hi := by
  have hq : (0 : ℚ) < d := by exact_mod_cast hd
  have scaled : (p + (n : ℚ) / d * e : ℚ) = ((d * p + n * e : Int) : ℚ) / d := by
    push_cast; field_simp
  rw [onAxis, scaled, le_div_iff₀ hq, div_le_iff₀ hq, mul_comm d lo, mul_comm d hi]
  exact_mod_cast Iff.rfl

/-- R70: the slab test finds a rational fraction of the segment at which it lies in the box. -/
theorem segmentMeets_iff (p q : Vec3) (b : Box) :
    segmentMeets p q b = true ↔ ∃ t : ℚ, 0 ≤ t ∧ t ≤ 1 ∧ onAxis p.x (q.x - p.x) b.lo.x b.hi.x t ∧
      onAxis p.y (q.y - p.y) b.lo.y b.hi.y t ∧ onAxis p.z (q.z - p.z) b.lo.z b.hi.z t := by
  have start : Slab (some ((0, 1), (1, 1))) (fun t => 0 ≤ t ∧ t ≤ 1) :=
    ⟨one_pos, one_pos, fun t => by simp [Frac.value]⟩
  have slab := slabAxis_spec _ _ p.z (q.z - p.z) b.lo.z b.hi.z
    (slabAxis_spec _ _ p.y (q.y - p.y) b.lo.y b.hi.y (slabAxis_spec _ _ p.x (q.x - p.x) b.lo.x b.hi.x start))
  simp only [segmentMeets, Vec.sub]
  revert slab
  generalize slabAxis (slabAxis (slabAxis _ _ _ _ _) _ _ _ _) _ _ _ _ = fractions
  match fractions with
  | none =>
    intro slab
    simpa [Slab, and_assoc] using slab
  | some (enter, exit) =>
    rintro ⟨h1, h2, h3⟩
    have order : (!Frac.less exit enter) = true ↔ Frac.value enter ≤ Frac.value exit := by
      rw [Bool.not_eq_true', ← Bool.not_eq_true, less_iff exit enter h2 h1, not_lt]
    simp only [and_assoc] at h3
    dsimp only
    simp only [order, h3]
    exact ⟨fun h => ⟨_, le_rfl, h⟩, fun ⟨t, h, h'⟩ => h.trans h'⟩

/-- Settles O19: the far and near squares are attained at corners and at points of the box; the slab test keeps the
interval of fractions that lie in the box on the axes it has looked at. -/
theorem lineRangeAndSlabTestsAreGeometric : Obligations.LineRangeAndSlabTestsAreGeometric := by
  refine ⟨fun anchor lenMin lenMax b hb _ _ => lineRangeAt_iff anchor lenMin lenMax b hb, fun p q b _ => ?_⟩
  rw [segmentMeets_iff]
  constructor
  · rintro ⟨t, t0, t1, hx, hy, hz⟩
    have hd : (0 : Int) < t.den := by exact_mod_cast t.den_pos
    rw [← t.num_div_den, ← Int.cast_natCast (R := ℚ)] at hx hy hz
    rw [onAxis_div _ _ _ _ _ _ hd] at hx hy hz
    have le_den : t.num ≤ t.den := by
      have := (Rat.le_iff t 1).1 t1
      simpa using this
    exact ⟨t.num, t.den, Rat.num_nonneg.2 t0, le_den, hd, hx.1, hx.2, hy.1, hy.2, hz⟩
  · rintro ⟨n, d, hn, hnd, hd, hx, hx', hy, hy', hz⟩
    have hq : (0 : ℚ) < d := by exact_mod_cast hd
    refine ⟨n / d, div_nonneg (by exact_mod_cast hn) hq.le, (div_le_one hq).2 (by exact_mod_cast hnd), ?_⟩
    simp only [onAxis_div _ _ _ _ _ _ hd]
    exact ⟨⟨hx, hx'⟩, ⟨hy, hy'⟩, hz⟩

end Sys2Proof.Proofs
end

section
namespace Sys2Proof.Proofs
open Sys2Proof.Machine

/-! ## Searches in ascending order -/

/-- In a list in ascending order of a key, a search finds the item of the least key that passes the test. -/
theorem find?_eq_some_iff_least {α : Type} (key : α → Nat) (test : α → Bool) (l : List α)
    (sorted : l.Pairwise (fun a b => key a < key b)) (x : α) :
    l.find? test = some x ↔ x ∈ l ∧ test x = true ∧ ∀ y ∈ l, key y < key x → test y = false := by
  rw [List.find?_eq_some_iff_append]
  constructor
  · rintro ⟨pass, before, after, rfl, fails⟩
    refine ⟨by simp, pass, fun y hy less => ?_⟩
    have behind := (List.pairwise_cons.1 (List.pairwise_append.1 sorted).2.1).1
    rcases List.mem_append.1 hy with hy | hy
    · simpa using fails y hy
    · rcases List.mem_cons.1 hy with rfl | hy
      · omega
      · have := behind y hy
        omega
  · rintro ⟨mem, pass, least⟩
    obtain ⟨before, after, rfl⟩ := List.append_of_mem mem
    refine ⟨pass, before, after, rfl, fun y hy => ?_⟩
    have less := (List.pairwise_append.1 sorted).2.2 y hy x (by simp)
    simpa using least y (by simp [hy]) less

theorem mem_winches (w : Winch) : w ∈ winches := by
  revert w; decide

theorem mem_lanes (l : Lane) : l ∈ lanes := by
  revert l; decide

theorem winches_find?_eq_some_iff (test : Winch → Bool) (w : Winch) :
    winches.find? test = some w ↔ test w = true ∧ ∀ v, v < w → test v = false := by
  rw [find?_eq_some_iff_least Fin.val test winches (by decide)]
  simp [mem_winches]

theorem lanes_find?_eq_some_iff (test : Lane → Bool) (l : Lane) :
    lanes.find? test = some l ↔ test l = true ∧ ∀ k, k < l → test k = false := by
  rw [find?_eq_some_iff_least Fin.val test lanes (by decide)]
  simp [mem_lanes]

theorem winches_find?_eq_none_iff (test : Winch → Bool) : winches.find? test = none ↔ ∀ w, test w = false := by
  simp [mem_winches]

theorem lanes_find?_eq_none_iff (test : Lane → Bool) : lanes.find? test = none ↔ ∀ l, test l = false := by
  simp [mem_lanes]

theorem lanes_any_iff (test : Lane → Bool) : lanes.any test = true ↔ ∃ l, test l = true := by
  simp [mem_lanes]

end Sys2Proof.Proofs
end

section
namespace Sys2Proof.Proofs
open Sys2Proof.Machine

/-! SUPPORT. The frame of the settings: one lemma for each operation that the meanings share and for each meaning, in the
order of the model's files. None but SET and hard reset writes a setting (section 1.4). -/

/-! ## The settings are left alone: ports and hand-offs -/

@[simp] theorem answer_settings (s : State) (p : Port) (a : Answer) :
    (s.answer p a).settings = s.settings := by
  simp [State.answer]

@[simp] theorem close_settings (s : State) (p : Port) (tag : Byte) (st : Status) (d1 d2 : Nat) :
    (s.close p tag st d1 d2).settings = s.settings := by
  simp [State.close]

@[simp] theorem closeItem_settings (s : State) (p : Port) (tag : Byte) (i : Item) (st : Status) (d1 d2 : Nat) :
    (s.closeItem p tag i st d1 d2).settings = s.settings := by
  simp [State.closeItem]

@[simp] theorem serve_settings (s : State) (p : Port) (tag : Byte) (work : Work) :
    (s.serve p tag work).settings = s.settings := by
  simp [State.serve]

@[simp] theorem turnAway_settings (s : State) (p : Port) (tag : Byte) (c : Instr) :
    (s.turnAway p tag c).settings = s.settings := by
  simp only [State.turnAway]; (repeat' split) <;> simp

@[simp] theorem handChanges_settings (s : State) (ns : List Nat) :
    (s.handChanges ns).settings = s.settings := by
  cases ns <;> simp

/-- A fold of events that leave the settings leaves them. -/
theorem foldl_settings {α : Type} (f : State → α → State) (l : List α) (h : ∀ s a, (f s a).settings = s.settings)
    (s : State) : (l.foldl f s).settings = s.settings := by
  induction l generalizing s with
  | nil => rfl
  | cons a rest ih => rw [List.foldl_cons, ih, h]

/-- A request leaves the settings when its owner's meaning does. -/
theorem take_settings (s : State) (p : Port) (tag : Byte) (c : Instr) (owner : State → State)
    (h : ∀ t, (owner t).settings = t.settings) : (s.take p tag c owner).settings = s.settings := by
  cases takes : s.takes p c with
  | true => rw [take_of_takes _ _ _ _ _ takes, h, served_settings]
  | false => rw [take_of_not_takes _ _ _ _ _ takes, turnAway_settings]

/-! ## The settings are left alone: the tables -/

@[simp] theorem reevaluateMarks_settings (s : State) :
    (reevaluateMarks s).settings = s.settings := by
  simp only [reevaluateMarks]; (repeat' split) <;> simp

@[simp] theorem takeChangeReport_settings (s : State) :
    (takeChangeReport s).settings = s.settings := by
  simp only [takeChangeReport]; (repeat' split) <;> simp

@[simp] theorem settleMarks_settings (s : State) :
    (settleMarks s).settings = s.settings := by
  exact foldl_settings _ _ (fun t _ => takeChangeReport_settings t) s

@[simp] theorem storeMark_settings (s : State) (p : Port) (tag : Byte) (n : Nat) (x : Vec3) (cap : Nat) (label : List Byte) :
    (storeMark s p tag n x cap label).settings = s.settings := by
  simp only [storeMark]; (repeat' split) <;> simp

@[simp] theorem markSet_settings (p : Port) (tag : Byte) (b : MarkSetBody) (s : State) :
    (markSet p tag b s).settings = s.settings := by
  simp only [markSet]; (repeat' split) <;> simp

@[simp] theorem markHere_settings (p : Port) (tag : Byte) (b : MarkHereBody) (s : State) :
    (markHere p tag b s).settings = s.settings := by
  simp only [markHere]; (repeat' split) <;> simp

@[simp] theorem markRetire_settings (p : Port) (tag : Byte) (n : Nat) (s : State) :
    (markRetire p tag n s).settings = s.settings := by
  simp only [markRetire]; (repeat' split) <;> simp

@[simp] theorem markRead_settings (p : Port) (tag : Byte) (n : Nat) (s : State) :
    (markRead p tag n s).settings = s.settings := by
  simp only [markRead]; (repeat' split) <;> simp

@[simp] theorem markList_settings (p : Port) (tag : Byte) (n : Nat) (s : State) :
    (markList p tag n s).settings = s.settings := by
  simp only [markList]; (repeat' split) <;> simp

@[simp] theorem applyZoneWork_settings (s : State) (w : ZoneWork) :
    (s.applyZoneWork w).settings = s.settings := by
  simp [State.applyZoneWork]

@[simp] theorem takeZoneResult_settings (s : State) :
    (takeZoneResult s).settings = s.settings := by
  simp only [takeZoneResult]; (repeat' split) <;> simp

@[simp] theorem zoneReady_settings (s : State) :
    (zoneReady s).settings = s.settings := by
  simp [zoneReady]

@[simp] theorem zoneLapse_settings (n : Nat) (s : State) :
    (zoneLapse n s).settings = s.settings := by
  simp only [zoneLapse]; (repeat' split) <;> simp

@[simp] theorem admitZone_settings (p : Port) (tag : Byte) (margin : Nat) (z : Zone) (s : State) :
    (admitZone p tag margin z s).settings = s.settings := by
  simp only [admitZone]; (repeat' split) <;> simp

@[simp] theorem zoneAdd_settings (p : Port) (tag : Byte) (b : ZoneAddBody) (s : State) :
    (zoneAdd p tag b s).settings = s.settings := by
  simp only [zoneAdd]; (repeat' split) <;> simp

@[simp] theorem admitEdit_settings (p : Port) (tag : Byte) (margin : Nat) (old z : Zone) (s : State) :
    (admitEdit p tag margin old z s).settings = s.settings := by
  simp only [admitEdit]; (repeat' split) <;> simp

@[simp] theorem zoneEdit_settings (p : Port) (tag : Byte) (b : ZoneEditBody) (s : State) :
    (zoneEdit p tag b s).settings = s.settings := by
  simp only [zoneEdit]; (repeat' split) <;> simp

@[simp] theorem zoneRetire_settings (p : Port) (tag : Byte) (n : Nat) (s : State) :
    (zoneRetire p tag n s).settings = s.settings := by
  simp only [zoneRetire]; (repeat' split) <;> simp

@[simp] theorem relock_settings (p : Port) (tag : Byte) (z : Zone) (lock : ZoneLock) (reason : ZoneReason) (s : State) :
    (relock p tag z lock reason s).settings = s.settings := by
  simp [relock]

@[simp] theorem zoneLock_settings (p : Port) (tag : Byte) (n : Nat) (s : State) :
    (zoneLock p tag n s).settings = s.settings := by
  simp only [zoneLock]; (repeat' split) <;> simp

@[simp] theorem zoneUnlock_settings (p : Port) (tag : Byte) (n : Nat) (s : State) :
    (zoneUnlock p tag n s).settings = s.settings := by
  simp only [zoneUnlock]; (repeat' split) <;> simp

@[simp] theorem zoneFix_settings (p : Port) (tag : Byte) (n : Nat) (s : State) :
    (zoneFix p tag n s).settings = s.settings := by
  simp only [zoneFix]; (repeat' split) <;> simp

@[simp] theorem zoneRead_settings (p : Port) (tag : Byte) (n : Nat) (s : State) :
    (zoneRead p tag n s).settings = s.settings := by
  simp only [zoneRead]; (repeat' split) <;> simp

@[simp] theorem zoneList_settings (p : Port) (tag : Byte) (filter code : Nat) (s : State) :
    (zoneList p tag filter code s).settings = s.settings := by
  simp only [zoneList]; (repeat' split) <;> simp

/-! ## The settings are left alone: the move queue -/

@[simp] theorem applyQueueWork_settings (s : State) (w : QueueWork) :
    (s.applyQueueWork w).settings = s.settings := by
  simp only [State.applyQueueWork]; (repeat' split) <;> simp

@[simp] theorem takeMarkReport_settings (s : State) :
    (takeMarkReport s).settings = s.settings := by
  simp only [takeMarkReport]; (repeat' split) <;> simp

@[simp] theorem queueReady_settings (s : State) :
    (queueReady s).settings = s.settings := by
  rw [queueReady, foldl_settings _ _ (fun t _ => takeMarkReport_settings t), settleMarks_settings]

@[simp] theorem travelBegun_settings (n : Nat) (s : State) :
    (travelBegun n s).settings = s.settings := by
  simp [travelBegun]

@[simp] theorem travelEnded_settings (s : State) :
    (travelEnded s).settings = s.settings := by
  simp [travelEnded]

@[simp] theorem cueEdge_settings (s : State) :
    (cueEdge s).settings = s.settings := by
  simp only [cueEdge]; (repeat' split) <;> simp

@[simp] theorem takeQueueResult_settings (s : State) :
    (takeQueueResult s).settings = s.settings := by
  simp only [takeQueueResult]; (repeat' split) <;> simp

@[simp] theorem dwellEnd_settings (s : State) :
    (dwellEnd s).settings = s.settings := by
  simp only [dwellEnd]; (repeat' split) <;> simp

@[simp] theorem admitMove_settings (p : Port) (tag : Byte) (clamps : Nat) (e : Entry) (s : State) :
    (admitMove p tag clamps e s).settings = s.settings := by
  simp [admitMove]

@[simp] theorem moveAdd_settings (p : Port) (tag : Byte) (b : MoveAddBody) (s : State) :
    (moveAdd p tag b s).settings = s.settings := by
  simp only [moveAdd]; (repeat' split) <;> simp

@[simp] theorem moveCancel_settings (p : Port) (tag : Byte) (id : Nat) (s : State) :
    (moveCancel p tag id s).settings = s.settings := by
  simp only [moveCancel]; (repeat' split) <;> simp

@[simp] theorem queueClear_settings (p : Port) (tag : Byte) (s : State) :
    (queueClear p tag s).settings = s.settings := by
  simp only [queueClear]; (repeat' split) <;> simp

/-! ## The settings are left alone: carrier control -/

@[simp] theorem haltRaised_settings (s : State) (r : Report) :
    (s.haltRaised r).settings = s.settings := by
  simp [State.haltRaised]

@[simp] theorem endTravelFrom_settings (s : State) (m : Mode) :
    (s.endTravelFrom m).settings = s.settings := by
  simp only [State.endTravelFrom]; (repeat' split) <;> simp

@[simp] theorem raiseCause_settings (r : Report) (s : State) :
    (raiseCause r s).settings = s.settings := by
  simp only [raiseCause]; (repeat' split) <;> simp

@[simp] theorem carrierStep_settings (r : StepResult) (s : State) :
    (carrierStep r s).settings = s.settings := by
  simp only [carrierStep]; (repeat' split) <;> simp

@[simp] theorem takeCarrierResult_settings (s : State) :
    (takeCarrierResult s).settings = s.settings := by
  simp only [takeCarrierResult]; (repeat' split) <;> simp

@[simp] theorem carrierReady_settings (s : State) :
    (carrierReady s).settings = s.settings := by
  simp only [carrierReady]; (repeat' split) <;> simp

@[simp] theorem estopActive_settings (level : Bool) (s : State) :
    (estopActive level s).settings = s.settings := by
  simp only [estopActive]; (repeat' split) <;> simp

@[simp] theorem endTravel_settings (h : EndHand) (s : State) :
    (endTravel h s).settings = s.settings := by
  simp only [endTravel]; (repeat' split) <;> simp

@[simp] theorem windHoldChange_settings (hold : Bool) (s : State) :
    (windHoldChange hold s).settings = s.settings := by
  simp only [windHoldChange]; (repeat' split) <;> simp

@[simp] theorem halt_settings (p : Port) (tag : Byte) (s : State) :
    (Machine.halt p tag s).settings = s.settings := by
  simp only [Machine.halt]; (repeat' split) <;> simp

@[simp] theorem run_settings (p : Port) (tag : Byte) (s : State) :
    (Machine.run p tag s).settings = s.settings := by
  simp only [Machine.run]; (repeat' split) <;> simp

@[simp] theorem stop_settings (p : Port) (tag : Byte) (s : State) :
    (Machine.stop p tag s).settings = s.settings := by
  simp only [Machine.stop]; (repeat' split) <;> simp

@[simp] theorem takeStick_settings (p : Port) (tag : Byte) (s : State) :
    (Machine.takeStick p tag s).settings = s.settings := by
  simp only [Machine.takeStick]; (repeat' split) <;> simp

@[simp] theorem releaseStick_settings (p : Port) (tag : Byte) (s : State) :
    (Machine.releaseStick p tag s).settings = s.settings := by
  simp only [Machine.releaseStick]; (repeat' split) <;> simp

@[simp] theorem park_settings (p : Port) (tag : Byte) (s : State) :
    (Machine.park p tag s).settings = s.settings := by
  simp only [Machine.park]; (repeat' split) <;> simp

@[simp] theorem unpark_settings (p : Port) (tag : Byte) (s : State) :
    (Machine.unpark p tag s).settings = s.settings := by
  simp only [Machine.unpark]; (repeat' split) <;> simp

@[simp] theorem steer_settings (p : Port) (tag : Byte) (v : Vec3) (s : State) :
    (Machine.steer p tag v s).settings = s.settings := by
  simp only [Machine.steer]; (repeat' split) <;> simp

@[simp] theorem acceptClear_settings (p : Port) (tag : Byte) (s : State) :
    (acceptClear p tag s).settings = s.settings := by
  simp [acceptClear]

@[simp] theorem clearHalt_settings (p : Port) (tag : Byte) (s : State) :
    (clearHalt p tag s).settings = s.settings := by
  simp only [clearHalt]; (repeat' split) <;> simp

/-! ## The settings are left alone: drums, wind and tension -/

@[simp] theorem encoderTransition_settings (w : Winch) (levels : Levels) (s : State) :
    (encoderTransition w levels s).settings = s.settings := by
  simp only [encoderTransition]; (repeat' split) <;> simp

@[simp] theorem trackWinch_settings (lengths : Quad Int) (s : State) (w : Winch) :
    (trackWinch lengths s w).settings = s.settings := by
  simp only [trackWinch]; (repeat' split) <;> simp

@[simp] theorem drumStep_settings (s : State) :
    (drumStep s).settings = s.settings := by
  simp only [drumStep]; (repeat' split) <;> simp [foldl_settings]

@[simp] theorem takeDrumResult_settings (s : State) :
    (takeDrumResult s).settings = s.settings := by
  simp only [takeDrumResult]; (repeat' split) <;> simp

@[simp] theorem windSecondTick_settings (s : State) :
    (windSecondTick s).settings = s.settings := by
  simp only [windSecondTick, State.windNotice]; (repeat' split) <;> simp

@[simp] theorem setLane_settings (s : State) (l : Lane) (r : LaneRec) :
    (s.setLane l r).settings = s.settings := by
  rfl

@[simp] theorem setWinch_settings (s : State) (w : Winch) (r : WinchRec) :
    (s.setWinch w r).settings = s.settings := by
  rfl

@[simp] theorem laneNotice_settings (s : State) (l : Lane) (reason : LaneReason) (previous : LaneState) (words : Nat) :
    (s.laneNotice l reason previous words).settings = s.settings := by
  rfl

@[simp] theorem formTensionCap_settings (s : State) :
    (formTensionCap s).settings = s.settings := by
  simp only [formTensionCap]; (repeat' split) <;> simp

@[simp] theorem reformWinch_settings (s : State) (w : Winch) :
    (reformWinch s w).settings = s.settings := by
  rfl

@[simp] theorem protectWinch_settings (s : State) (w : Winch) :
    (protectWinch s w).settings = s.settings := by
  simp only [protectWinch]; (repeat' split) <;> simp

@[simp] theorem outputUpdate_settings (s : State) (w : Winch) (c : Cell) (v : Int) :
    (outputUpdate s w c v).settings = s.settings := by
  simp [outputUpdate]

@[simp] theorem freshnessUpdate_settings (s : State) (w : Winch) :
    (freshnessUpdate s w).settings = s.settings := by
  simp only [freshnessUpdate]; (repeat' split) <;> simp

@[simp] theorem freshnessOf_settings (s : State) (m : Option CellName) :
    (freshnessOf s m).settings = s.settings := by
  simp only [freshnessOf]; (repeat' split) <;> simp

@[simp] theorem closeCheckAt_settings (s : State) (p : Port) (l : Lane) (st : Status) (d : Nat) :
    (closeCheckAt s p l st d).settings = s.settings := by
  simp only [closeCheckAt]; (repeat' split) <;> simp

@[simp] theorem closeCheck_settings (s : State) (l : Lane) (st : Status) (d : Nat) :
    (closeCheck s l st d).settings = s.settings := by
  simp only [closeCheck]; (repeat' split) <;> simp

@[simp] theorem failCheck_settings (s : State) (l : Lane) (mark : Nat) :
    (failCheck s l mark).settings = s.settings := by
  simp [failCheck]

@[simp] theorem checkSample_settings (s : State) (l : Lane) (word : BitVec 16) :
    (checkSample s l word).settings = s.settings := by
  simp only [checkSample]; (repeat' split) <;> simp

@[simp] theorem historySample_settings (s : State) (l : Lane) (word : BitVec 16) :
    (historySample s l word).settings = s.settings := by
  simp only [historySample]; (repeat' split) <;> simp

@[simp] theorem restoreLane_settings (s : State) (l : Lane) :
    (restoreLane s l).settings = s.settings := by
  simp [restoreLane]

@[simp] theorem sampleArrival_settings (l : Lane) (word : BitVec 16) (s : State) :
    (sampleArrival l word s).settings = s.settings := by
  simp only [sampleArrival]; (repeat' split) <;> simp

@[simp] theorem silenceExpiry_settings (l : Lane) (s : State) :
    (silenceExpiry l s).settings = s.settings := by
  simp only [silenceExpiry]; (repeat' split) <;> simp

@[simp] theorem startCheck_settings (p : Port) (tag : Byte) (l : Lane) (s : State) :
    (startCheck p tag l s).settings = s.settings := by
  simp only [startCheck]; (repeat' split) <;> simp

@[simp] theorem laneCheck_settings (p : Port) (tag : Byte) (n : Nat) (s : State) :
    (laneCheck p tag n s).settings = s.settings := by
  simp only [laneCheck]; (repeat' split) <;> simp

@[simp] theorem settingReset_settings (l : Lane) (m : Option CellName) (s : State) :
    (settingReset l m s).settings = s.settings := by
  simp only [settingReset]; (repeat' split) <;> simp

@[simp] theorem filterReset_settings (s : State) :
    (filterReset s).settings = s.settings := by
  rw [filterReset, foldl_settings _ _ freshnessUpdate_settings]

@[simp] theorem abortCheck_settings (l : Lane) (s : State) :
    (abortCheck l s).settings = s.settings := by
  simp [abortCheck]

/-! ## The settings are left alone: the drive bus and the path -/

@[simp] theorem takeWrite_settings (s : State) :
    (takeWrite s).settings = s.settings := by
  simp only [takeWrite]; (repeat' split) <;> simp

@[simp] theorem takeWrites_settings (s : State) :
    (takeWrites s).settings = s.settings := by
  exact foldl_settings _ _ (fun t _ => takeWrite_settings t) s

@[simp] theorem takeRaise_settings (s : State) :
    (takeRaise s).settings = s.settings := by
  simp only [takeRaise, raiseStopNow]; (repeat' split) <;> simp

@[simp] theorem expiryReady_settings (s : State) :
    (expiryReady s).settings = s.settings := by
  simp only [expiryReady]; split <;> simp [foldl_settings]

@[simp] theorem transmitBegin_settings (s : State) :
    (transmitBegin s).settings = s.settings := by
  simp only [transmitBegin]; (repeat' split) <;> simp

@[simp] theorem countFailure_settings (c : TxContent) (s : State) :
    (countFailure c s).settings = s.settings := by
  simp only [countFailure]; (repeat' split) <;> simp

@[simp] theorem transmissionEnd_settings (o : TxOutcome) (s : State) :
    (transmissionEnd o s).settings = s.settings := by
  simp only [transmissionEnd]; (repeat' split) <;> simp

@[simp] theorem keepalive_settings (s : State) :
    (keepalive s).settings = s.settings := by
  simp only [keepalive]; (repeat' split) <;> simp

@[simp] theorem statusTimeout_settings (w : Winch) (s : State) :
    (statusTimeout w s).settings = s.settings := by
  simp only [statusTimeout]; (repeat' split) <;> simp

@[simp] theorem ageAndKeep_settings (s : State) :
    (ageAndKeep s).settings = s.settings := by
  simp only [ageAndKeep]; split <;> simp [foldl_settings]

@[simp] theorem statusReceived_settings (f : CanFrame) (s : State) :
    (statusReceived f s).settings = s.settings := by
  simp only [statusReceived]; (repeat' split) <;> simp

@[simp] theorem stepPath_settings (s : State) (p : Path) :
    (stepPath s p).settings = s.settings := by
  rfl

@[simp] theorem settleStep_settings (s : State) :
    (settleStep s).settings = s.settings := by
  simp [settleStep]

@[simp] theorem servoStep_settings (s : State) :
    (servoStep s).settings = s.settings := by
  simp only [servoStep]; (repeat' split) <;> simp

@[simp] theorem freeze_settings (s : State) :
    (Machine.freeze s).settings = s.settings := by
  simp only [Machine.freeze]; (repeat' split) <;> simp

/-! ## The settings are left alone: the request stage, the rig and GET -/

@[simp] theorem passRequest_settings (s : State) (p : Port) (tag : Byte) (c : Instr) :
    (passRequest s p tag c).settings = s.settings := by
  simp only [passRequest]; (repeat' split) <;> simp

@[simp] theorem takeFrame_settings (s : State) (p : Port) (f : RawFrame) :
    (takeFrame s p f).settings = s.settings := by
  simp only [takeFrame]; (repeat' split) <;> simp

@[simp] theorem requestFrame_settings (p : Port) (s : State) :
    (requestFrame p s).settings = s.settings := by
  simp only [requestFrame]; (repeat' split) <;> simp

@[simp] theorem endService_settings (p : Port) (v : Service) (s : State) :
    (endService p v s).settings = s.settings := by
  simp only [endService]; (repeat' split) <;> simp

@[simp] theorem abort_settings (p : Port) (tag : Byte) (s : State) :
    (Machine.abort p tag s).settings = s.settings := by
  simp only [Machine.abort]; (repeat' split) <;> simp

@[simp] theorem portLineFree_settings (p : Port) (s : State) :
    (portLineFree p s).settings = s.settings := by
  simp only [portLineFree]; (repeat' split) <;> simp

@[simp] theorem getSetting_settings (p : Port) (tag : Byte) (id index : Nat) (s : State) :
    (getSetting p tag id index s).settings = s.settings := by
  simp only [getSetting]; (repeat' split) <;> simp

@[simp] theorem rigCommit_settings (p : Port) (tag : Byte) (pose : Vec3) (s : State) :
    (rigCommit p tag pose s).settings = s.settings := by
  simp only [rigCommit, commitAt]; (repeat' split) <;> simp

@[simp] theorem unrigNow_settings (s : State) :
    (unrigNow s).settings = s.settings := by
  simp only [unrigNow, unrigBlocks, raiseStopNow, State.windNotice]; split <;> simp

@[simp] theorem unrig_settings (p : Port) (tag : Byte) (s : State) :
    (Machine.unrig p tag s).settings = s.settings := by
  simp only [Machine.unrig]; (repeat' split) <;> simp

/-! ## The settings are left alone: the commands -/

theorem execFaultReport_settings (s : State) : ∃ t, execFaultReport s = .next t ∧ t.settings = s.settings := by
  unfold execFaultReport; split <;> exact ⟨_, rfl, by simp⟩

theorem execEndTravel_settings (s : State) : ∃ t, execEndTravel s = .next t ∧ t.settings = s.settings := by
  unfold execEndTravel; split <;> exact ⟨_, rfl, by simp⟩

theorem execWindHoldChange_settings (s : State) : ∃ t, execWindHoldChange s = .next t ∧ t.settings = s.settings := by
  unfold execWindHoldChange; split <;> exact ⟨_, rfl, by simp⟩

theorem execTravelBegun_settings (s : State) : ∃ t, execTravelBegun s = .next t ∧ t.settings = s.settings := by
  unfold execTravelBegun; split <;> exact ⟨_, rfl, by simp⟩

theorem execTravelEnded_settings (s : State) : ∃ t, execTravelEnded s = .next t ∧ t.settings = s.settings := by
  unfold execTravelEnded; split <;> exact ⟨_, rfl, by simp⟩

theorem execRetirementReport_settings (s : State) : ∃ t, execRetirementReport s = .next t ∧ t.settings = s.settings := by
  unfold execRetirementReport; split <;> exact ⟨_, rfl, by simp⟩

theorem execReplacementReport_settings (s : State) : ∃ t, execReplacementReport s = .next t ∧ t.settings = s.settings := by
  unfold execReplacementReport; split <;> exact ⟨_, rfl, by simp⟩

theorem execStateChangeReport_settings (s : State) : ∃ t, execStateChangeReport s = .next t ∧ t.settings = s.settings := by
  unfold execStateChangeReport; split <;> exact ⟨_, rfl, by simp⟩

/-- R12: no command but a SET and a hard reset changes a setting. -/
theorem exec_settings (c : Instr) (s : State) (reset : ∀ lines, c ≠ .hardReset lines)
    (set : ∀ p tag id index v, c ≠ .set p tag id index v) : ∃ t, exec c s = .next t ∧ t.settings = s.settings := by
  cases c with
  | hardReset lines => exact absurd rfl (reset lines)
  | set p tag id index v => exact absurd rfl (set p tag id index v)
  | servoStep => exact ⟨_, rfl, servoStep_settings s⟩
  | setpointWrite => exact ⟨_, rfl, takeWrite_settings s⟩
  | zoneStepResult => exact ⟨_, rfl, by simp⟩
  | queueStepResult => exact ⟨_, rfl, takeQueueResult_settings s⟩
  | dwellEnd => exact ⟨_, rfl, by simp⟩
  | carrierStepResult => exact ⟨_, rfl, takeCarrierResult_settings s⟩
  | drumStepResult => exact ⟨_, rfl, takeDrumResult_settings s⟩
  | zoneSecondTick => exact ⟨_, rfl, by simp⟩
  | zoneLapse n => exact ⟨_, rfl, by simp⟩
  | drumSecondTick => exact ⟨_, rfl, rfl⟩
  | windSecondTick => exact ⟨_, rfl, windSecondTick_settings s⟩
  | windHoldChange => exact execWindHoldChange_settings s
  | anemometerPulse => exact ⟨_, rfl, rfl⟩
  | encoderTransition w levels => exact ⟨_, rfl, encoderTransition_settings w levels s⟩
  | sampleArrival l word => exact ⟨_, rfl, sampleArrival_settings l word s⟩
  | silenceExpiry l => exact ⟨_, rfl, silenceExpiry_settings l s⟩
  | cueEdge => exact ⟨_, rfl, by simp⟩
  | estopActive level => exact ⟨_, rfl, estopActive_settings level s⟩
  | faultReport => exact execFaultReport_settings s
  | freeze => exact ⟨_, rfl, freeze_settings s⟩
  | raiseStop => exact ⟨_, rfl, takeRaise_settings s⟩
  | drivePeriodExpiry => exact ⟨_, rfl, by simp [drivePeriodExpiry]⟩
  | statusTimeout w => exact ⟨_, rfl, statusTimeout_settings w s⟩
  | keepalive => exact ⟨_, rfl, keepalive_settings s⟩
  | transmitBegin => exact ⟨_, rfl, transmitBegin_settings s⟩
  | transmissionEnd o => exact ⟨_, rfl, transmissionEnd_settings o s⟩
  | statusReceived f => exact ⟨_, rfl, statusReceived_settings f s⟩
  | travelBegun => exact execTravelBegun_settings s
  | travelEnded => exact execTravelEnded_settings s
  | endTravel => exact execEndTravel_settings s
  | changeInForceReport => exact ⟨_, rfl, takeChangeReport_settings s⟩
  | retirementReport => exact execRetirementReport_settings s
  | replacementReport => exact execReplacementReport_settings s
  | stateChangeReport => exact execStateChangeReport_settings s
  | receiveCharacter p b stop => exact ⟨_, rfl, by simp⟩
  | receiveGap p => exact ⟨_, rfl, by simp⟩
  | requestFrame p => exact ⟨_, rfl, requestFrame_settings p s⟩
  | portLineFree p => exact ⟨_, rfl, portLineFree_settings p s⟩
  | portPeriodExpiry p => exact ⟨_, rfl, by simp⟩
  | telemetryDue p => exact ⟨_, rfl, by simp⟩
  | get p tag id index => exact ⟨_, rfl, take_settings _ _ _ _ _ (getSetting_settings p tag id index)⟩
  | rigCommit p tag pose => exact ⟨_, rfl, take_settings _ _ _ _ _ (rigCommit_settings p tag pose)⟩
  | unrig p tag => exact ⟨_, rfl, take_settings _ _ _ _ _ (fun t => by simp)⟩
  | laneCheck p tag n => exact ⟨_, rfl, take_settings _ _ _ _ _ (laneCheck_settings p tag n)⟩
  | zoneAdd p tag b => exact ⟨_, rfl, take_settings _ _ _ _ _ (fun t => by simp)⟩
  | zoneEdit p tag b => exact ⟨_, rfl, take_settings _ _ _ _ _ (fun t => by simp)⟩
  | zoneRetire p tag n => exact ⟨_, rfl, take_settings _ _ _ _ _ (fun t => by simp)⟩
  | zoneLock p tag n => exact ⟨_, rfl, take_settings _ _ _ _ _ (fun t => by simp)⟩
  | zoneUnlock p tag n => exact ⟨_, rfl, take_settings _ _ _ _ _ (fun t => by simp)⟩
  | zoneFix p tag n => exact ⟨_, rfl, take_settings _ _ _ _ _ (fun t => by simp)⟩
  | zoneRead p tag n => exact ⟨_, rfl, take_settings _ _ _ _ _ (fun t => by simp)⟩
  | zoneList p tag filter code => exact ⟨_, rfl, take_settings _ _ _ _ _ (fun t => by simp)⟩
  | markSet p tag b => exact ⟨_, rfl, take_settings _ _ _ _ _ (fun t => by simp)⟩
  | markHere p tag b => exact ⟨_, rfl, take_settings _ _ _ _ _ (fun t => by simp)⟩
  | markRetire p tag n => exact ⟨_, rfl, take_settings _ _ _ _ _ (fun t => by simp)⟩
  | markRead p tag n => exact ⟨_, rfl, take_settings _ _ _ _ _ (fun t => by simp)⟩
  | markList p tag filter => exact ⟨_, rfl, take_settings _ _ _ _ _ (fun t => by simp)⟩
  | moveAdd p tag b => exact ⟨_, rfl, take_settings _ _ _ _ _ (fun t => by simp)⟩
  | moveCancel p tag id => exact ⟨_, rfl, take_settings _ _ _ _ _ (fun t => by simp)⟩
  | queueClear p tag => exact ⟨_, rfl, take_settings _ _ _ _ _ (fun t => by simp)⟩
  | queueList p tag => exact ⟨_, rfl, take_settings _ _ _ _ _ (fun t => by simp)⟩
  | run p tag => exact ⟨_, rfl, take_settings _ _ _ _ _ (run_settings p tag)⟩
  | stop p tag => exact ⟨_, rfl, take_settings _ _ _ _ _ (stop_settings p tag)⟩
  | takeStick p tag => exact ⟨_, rfl, take_settings _ _ _ _ _ (takeStick_settings p tag)⟩
  | steer p tag v => exact ⟨_, rfl, take_settings _ _ _ _ _ (fun t => by simp)⟩
  | releaseStick p tag => exact ⟨_, rfl, take_settings _ _ _ _ _ (releaseStick_settings p tag)⟩
  | park p tag => exact ⟨_, rfl, take_settings _ _ _ _ _ (fun t => by simp)⟩
  | unpark p tag => exact ⟨_, rfl, take_settings _ _ _ _ _ (unpark_settings p tag)⟩
  | halt p tag => exact ⟨_, rfl, take_settings _ _ _ _ _ (fun t => by simp)⟩
  | clearHalt p tag => exact ⟨_, rfl, take_settings _ _ _ _ _ (clearHalt_settings p tag)⟩
  | abort p tag => exact ⟨_, rfl, take_settings _ _ _ _ _ (abort_settings p tag)⟩

/-! ## Rig settings while rigged (R8, R20) -/

/-- Two records of settings that differ in the live settings of Table 1-3 at most. -/
def SameRig (a b : Settings) : Prop :=
  b = { a with
    capTrim := b.capTrim, tensionSlack := b.tensionSlack, tensionWarn := b.tensionWarn, tensionMax := b.tensionMax,
    disagreeTol := b.disagreeTol, windFull := b.windFull, windStop := b.windStop, derateFloor := b.derateFloor }

theorem storeLive_sameRig (st : Settings) (id index : Nat) (n : Int) : SameRig st (storeLive st id index n) := by
  unfold storeLive; split <;> rfl

theorem setRig_rigged (p : Port) (tag : Byte) (id index : Nat) (v : Vec3) (s : State) (h : s.rigged = true) :
    setRig p tag id index v s = s.close p tag .wrongMode id index := if_pos h

/-- A live setting's SET stores it or leaves the settings as they are. -/
theorem setLive_sameRig (p : Port) (tag : Byte) (id index : Nat) (n : Int) (s : State) :
    SameRig s.settings (setLive p tag id index n s).settings := by
  simp only [setLive]
  split
  · rw [close_settings]; rfl
  · split
    · rw [close_settings]; exact storeLive_sameRig ..
    · rw [close_settings]; rfl

theorem setSetting_sameRig (p : Port) (tag : Byte) (id index : Nat) (v : Vec3) (s : State) (h : s.rigged = true) :
    SameRig s.settings (setSetting p tag id index v s).settings := by
  unfold setSetting
  split
  · rw [close_settings]; rfl
  · rw [setRig_rigged _ _ _ _ _ _ h, close_settings]; rfl
  · exact setLive_sameRig ..
  · rw [setInterval, close_settings, setPort_settings]; rfl

/-- Settles O14: a SET while rigged stores live settings alone, and no other command but a hard reset stores any. -/
theorem rigSettingsFrozenWhileRigged : Obligations.RigSettingsFrozenWhileRigged := by
  intro c s t rigged reset run
  by_cases set : ∃ p tag id index v, c = .set p tag id index v
  · obtain ⟨p, tag, id, index, v, rfl⟩ := set
    obtain rfl := Host.Outcome.next.inj run
    cases takes : s.takes p (.set p tag id index v) with
    | true =>
      rw [take_of_takes _ _ _ _ _ takes]
      have frozen := setSetting_sameRig p tag id index v (s.served p (.set p tag id index v) [] []) (by simpa using rigged)
      rwa [served_settings] at frozen
    | false =>
      rw [take_of_not_takes _ _ _ _ _ takes, turnAway_settings]
  · obtain ⟨t', run', same⟩ := exec_settings c s reset (fun p tag id index v e => set ⟨p, tag, id, index, v, e⟩)
    obtain rfl := Host.Outcome.next.inj (run'.symm.trans run)
    rw [same]

end Sys2Proof.Proofs
end

section
namespace Sys2Proof.Proofs
open Sys2Proof.Machine

/-! ## Extents and free numbers (R2, R21, R27) -/

/-- R2: the axis of the first coordinate out of range, as a search over the three. -/
theorem positionFault_eq_find (p : Vec3) : positionFault p =
    (([(decide (p.x < -100000 ∨ 100000 < p.x), 0), (decide (p.y < -100000 ∨ 100000 < p.y), 1),
      (decide (p.z < 0 ∨ 80000 < p.z), 2)] : List (Bool × Nat)).find? Prod.fst).map Prod.snd := by
  by_cases x : p.x < -100000 ∨ 100000 < p.x
  · simp [positionFault, x]
  by_cases y : p.y < -100000 ∨ 100000 < p.y
  · simp [positionFault, x, y]
  by_cases z : p.z < 0 ∨ 80000 < p.z
  · simp [positionFault, x, y, z]
  · simp [positionFault, x, y, z]

/-- R27 steps 3 and 4: the tests of an extent in order: both corners, then the order of the corners. -/
theorem extentFault_eq_orElse (least greatest : Vec3) : extentFault least greatest =
    (positionFault least).or ((positionFault greatest).or
      (([(decide (greatest.x < least.x), 3), (decide (greatest.y < least.y), 4), (decide (greatest.z < least.z), 5)] :
        List (Bool × Nat)).find? Prod.fst |>.map Prod.snd)) := by
  unfold extentFault
  cases positionFault least <;> cases positionFault greatest <;> simp only [Option.or]
  by_cases x : greatest.x < least.x
  · simp [x]
  by_cases y : greatest.y < least.y
  · simp [x, y]
  by_cases z : greatest.z < least.z
  · simp [x, y, z]
  · simp [x, y, z]

/-- R21: a free number is the lowest in range that no record holds. -/
theorem freeNumber_eq_some_iff (zones : List Zone) (n : Nat) : freeNumber zones = some n ↔
    1 ≤ n ∧ n ≤ 48 ∧ (∀ z ∈ zones, z.number ≠ n) ∧ ∀ m, 1 ≤ m → m < n → ∃ z ∈ zones, z.number = m := by
  have bound : n < 49 ↔ n ≤ 48 := Nat.lt_succ_iff
  rw [freeNumber, List.find?_range'_eq_some]
  simp [bound]
  tauto

theorem freeNumber_eq_none_iff (zones : List Zone) :
    freeNumber zones = none ↔ ∀ m, 1 ≤ m → m ≤ 48 → ∃ z ∈ zones, z.number = m := by
  have bound : ∀ m, m < 49 ↔ m ≤ 48 := fun m => Nat.lt_succ_iff
  rw [freeNumber, List.find?_range'_eq_none]
  simp [bound]

/-! ## ZONE_ADD (R27 to R29) -/

theorem served_zonesSettled (s : State) (p : Port) (c : Instr) (as : List Answer) (ns : List Notice) :
    (s.served p c as ns).zonesSettled = s.zonesSettled := by
  simp [State.zonesSettled]

/-- With nothing standing that the zone table must take first, ZONE_ADD is judged in the state in which it is taken. -/
theorem exec_zoneAdd (p : Port) (tag : Byte) (b : ZoneAddBody) (s : State) (takes : s.takes p (.zoneAdd p tag b) = true)
    (settled : s.zonesSettled = true) :
    exec (.zoneAdd p tag b) s = .next (zoneAdd p tag b (s.served p (.zoneAdd p tag b) [] [])) := by
  show Host.Outcome.next _ = _
  rw [take_of_takes _ _ _ _ _ takes, zoneReady_none _ (by rwa [served_zonesSettled])]

/-- The record that a ZONE_ADD offers, ACTIVE until it is judged. -/
def offered (p : Port) (b : ZoneAddBody) (n : Nat) (kind : ZoneKind) : Zone :=
  { number := n, kind := kind, origin := p, state := .active, lock := .opened, least := b.least, greatest := b.greatest,
    margin := clampMargin b.margin, lifetime := lifetimeOf b.lifetime }

section Judged

variable (p : Port) (tag : Byte) (b : ZoneAddBody) (s : State) (kind : ZoneKind)

theorem zoneAdd_unknownKind (h : zoneKindOf b.kind = none) : zoneAdd p tag b s = s.close p tag .outOfRange 0 7 := by
  simp [zoneAdd, h]

theorem zoneAdd_notPermitted (h : zoneKindOf b.kind = some .keepIn) (rig : p = .rig) :
    zoneAdd p tag b s = s.close p tag .notPermitted 0 0 := by
  simp [zoneAdd, h, rig]

variable (known : zoneKindOf b.kind = some kind) (allowed : ¬(kind = .keepIn ∧ p = .rig))
include known allowed

theorem zoneAdd_badExtent (code : Nat) (h : extentFault b.least b.greatest = some code) :
    zoneAdd p tag b s = s.close p tag .outOfRange 0 code := by
  simp [zoneAdd, known, h, allowed]

variable (extent : extentFault b.least b.greatest = none)
include extent

theorem zoneAdd_longLifetime (h : 14400 < b.lifetime) : zoneAdd p tag b s = s.close p tag .outOfRange 0 6 := by
  simp [zoneAdd, known, allowed, extent, h]

variable (life : ¬14400 < b.lifetime)
include life

theorem zoneAdd_tableFull (h : freeNumber s.zones = none) : zoneAdd p tag b s = s.close p tag .tableFull 0 0 := by
  simp [zoneAdd, known, allowed, extent, life, h]

variable (n : Nat) (free : freeNumber s.zones = some n)
include free

theorem zoneAdd_keepOut (h : kind = .keepOut) : zoneAdd p tag b s =
    admitZone p tag b.margin (if deferred s.refBox (offered p b n .keepOut) then
      { offered p b n .keepOut with state := .pending } else offered p b n .keepOut) s := by
  subst h
  simp [zoneAdd, known, extent, life, free, offered]
  rfl

theorem zoneAdd_keepIn_conflict (h : kind = .keepIn) (code : Nat)
    (fails : keepInFault s (offered p b n .keepIn) = some code) : zoneAdd p tag b s = s.close p tag .conflict 0 code := by
  subst h
  simp only [true_and] at allowed
  unfold offered at fails
  simp [zoneAdd, known, allowed, extent, life, free, fails]

theorem zoneAdd_keepIn_admitted (h : kind = .keepIn) (passes : keepInFault s (offered p b n .keepIn) = none) :
    zoneAdd p tag b s = admitZone p tag b.margin (offered p b n .keepIn) s := by
  subst h
  simp only [true_and] at allowed
  unfold offered at passes ⊢
  simp [zoneAdd, known, allowed, extent, life, free, passes]

end Judged

/-- R28: a box that is not empty has no empty axis. -/
theorem emptyAxis_of_inhabited (b : Box) (h : b.inhabited) : b.emptyAxis = none := by
  obtain ⟨x, y, z⟩ := h
  simp [Box.emptyAxis, not_lt.2 x, not_lt.2 y, not_lt.2 z]

theorem keepInFault_served (s : State) (p : Port) (c : Instr) (as : List Answer) (ns : List Notice) (z : Zone) :
    keepInFault (s.served p c as ns) z = keepInFault s z := by
  simp [keepInFault]

theorem keepInFault_empty (s : State) (z : Zone) (axis : Nat) (h : z.shrunk.emptyAxis = some axis) :
    keepInFault s z = some axis := by
  simp [keepInFault, h]

theorem keepInFault_none (s : State) (z : Zone) (h : z.shrunk.inhabited)
    (range : s.rigged = true → lineRangeFault s.settings z.shrunk = none) : keepInFault s z = none := by
  rw [keepInFault, emptyAxis_of_inhabited _ h]
  by_cases r : s.rigged = true
  · simp [r, range r]
  · simp [r]

theorem keepInFault_winch (s : State) (z : Zone) (w : Winch) (h : z.shrunk.inhabited) (rigged : s.rigged = true)
    (range : lineRangeFault s.settings z.shrunk = some w) : keepInFault s z = some (0x10 + w.val) := by
  simp [keepInFault, emptyAxis_of_inhabited _ h, rigged, range]

/-- R27: the record joins the table; an ACTIVE one is a change in force, a PENDING one is deferred. -/
theorem admitZone_served (p : Port) (tag : Byte) (margin : Nat) (z : Zone) (c : Instr) (s : State)
    (settled : s.zonesSettled = true) : admitZone p tag margin z (s.served p c [] []) =
    State.served { s with
        zones := insertZone z s.zones
        hands := { s.hands with changes := if z.state = .active then [[z.number]] else [] } }
      p c [closing tag (if z.state = .pending then .deferred else if 5000 < margin then .clamped else .ok) z.number
        (if 5000 < margin then 1 else 0)] [.zone .added z] := by
  have none_stands : s.hands.changes = [] := by
    simp only [State.zonesSettled, Bool.and_eq_true, List.isEmpty_iff] at settled
    exact settled.1
  by_cases active : z.state = .active
  · simp [admitZone, active, none_stands, clampStatus, marginDetail]
  · simp [admitZone, active, ← none_stands, clampStatus, marginDetail]

/-- R5: the first winch whose line range the box leaves. -/
theorem lineRangeFault_eq_some_iff (st : Settings) (b : Box) (w : Winch) : lineRangeFault st b = some w ↔
    lineRangeAt (st.anchor.get w) (st.lenMin.get w) (st.lenMax.get w) b = false ∧
      ∀ v, v < w → lineRangeAt (st.anchor.get v) (st.lenMin.get v) (st.lenMax.get v) b = true := by
  simp [lineRangeFault, winches_find?_eq_some_iff]

theorem zoneKindOf_keepOut {n : Nat} (h : n = 0) : zoneKindOf n = some .keepOut := by rw [h]; rfl

theorem zoneKindOf_keepIn {n : Nat} (h : n = 1) : zoneKindOf n = some .keepIn := by rw [h]; rfl

theorem zoneKindOf_unknown {n : Nat} (h : 1 < n) : zoneKindOf n = none := by
  obtain ⟨k, rfl⟩ := Nat.exists_eq_add_of_lt h
  rw [show 1 + k + 1 = k + 2 by omega]
  rfl

/-- R27 to R29: what an accepted ZONE_ADD leaves. -/
theorem exec_zoneAdd_admits (p : Port) (tag : Byte) (b : ZoneAddBody) (n : Nat) (s : State)
    (takes : s.takes p (.zoneAdd p tag b) = true) (settled : s.zonesSettled = true)
    (extent : extentFault b.least b.greatest = none) (life : b.lifetime ≤ 14400) (free : freeNumber s.zones = some n) :
    let c : Instr := .zoneAdd p tag b
    (∀ z, (b.kind = 0 ∧ z = (if deferred s.refBox (offered p b n .keepOut) then
          { offered p b n .keepOut with state := .pending } else offered p b n .keepOut)) ∨
        (b.kind = 1 ∧ p = .safety ∧ z = offered p b n .keepIn ∧ keepInFault s z = none) →
      exec c s = .next (admitZone p tag b.margin z (s.served p c [] []))) := by
  intro c z h
  have taken : freeNumber (s.served p c [] []).zones = some n := by rwa [served_zones]
  rw [exec_zoneAdd p tag b s takes settled]
  obtain ⟨kind, rfl⟩ | ⟨kind, rfl, rfl, passes⟩ := h
  · rw [zoneAdd_keepOut p tag b _ _ (zoneKindOf_keepOut kind) (by simp) extent (by omega) n taken rfl, served_refBox]
  · rw [zoneAdd_keepIn_admitted _ tag b _ _ (zoneKindOf_keepIn kind) (by simp) extent (by omega) n taken rfl
      (by rwa [keepInFault_served])]

theorem zoneKindOf_allowed (p : Port) (n : Nat) (h : n = 0 ∨ (n = 1 ∧ p = .safety)) :
    ∃ kind, zoneKindOf n = some kind ∧ ¬(kind = .keepIn ∧ p = .rig) := by
  obtain rfl | ⟨rfl, rfl⟩ := h
  · exact ⟨.keepOut, rfl, by simp⟩
  · exact ⟨.keepIn, rfl, by simp⟩

/-- R28: a keep-in from the safety port that fails a box test is refused with the test's sub-code. -/
theorem exec_zoneAdd_conflict (tag : Byte) (b : ZoneAddBody) (n code : Nat) (s : State)
    (takes : s.takes .safety (.zoneAdd .safety tag b) = true) (settled : s.zonesSettled = true) (kind : b.kind = 1)
    (extent : extentFault b.least b.greatest = none) (life : b.lifetime ≤ 14400) (free : freeNumber s.zones = some n)
    (fails : keepInFault s (offered .safety b n .keepIn) = some code) :
    exec (.zoneAdd .safety tag b) s =
      .next (s.served .safety (.zoneAdd .safety tag b) [closing tag .conflict 0 code] []) := by
  rw [exec_zoneAdd _ tag b s takes settled, zoneAdd_keepIn_conflict _ tag b _ _ (zoneKindOf_keepIn kind) (by simp) extent
    (by omega) n (by rwa [served_zones]) rfl code (by rwa [keepInFault_served]), served_close]
  rfl

/-- Settles O37: each clause is one of the branches of ZONE_ADD, at the state in which the request is taken. -/
theorem zoneAddTakesLowestNumber : Obligations.ZoneAddTakesLowestNumber := by
  refine ⟨?_, fun zones => ⟨freeNumber_eq_some_iff zones, freeNumber_eq_none_iff zones⟩, ?_, ?_⟩
  · intro p tag b n s takes settled extent life free status detail z admitted
    have admits := exec_zoneAdd_admits p tag b n s takes settled extent life free
    refine ⟨fun kind apart => ?_, fun kind ⟨r, ref, meets⟩ => ?_, fun kind port box range => ?_⟩
    · have clear : deferred s.refBox (offered p b n .keepOut) = false := by
        cases ref : s.refBox with
        | none => rfl
        | some r => exact apart r ref
      refine (admits (offered p b n .keepOut) (.inl ⟨kind, by simp [clear]⟩)).trans ?_
      rw [admitZone_served _ _ _ _ _ _ settled]
      rfl
    · have defers : deferred s.refBox (offered p b n .keepOut) = true := by
        rw [ref]; exact meets
      refine (admits { offered p b n .keepOut with state := .pending } (.inl ⟨kind, by simp [defers]⟩)).trans ?_
      rw [admitZone_served _ _ _ _ _ _ settled]
      rfl
    · refine (admits (offered p b n .keepIn) (.inr ⟨kind, port, rfl, keepInFault_none s _ box range⟩)).trans ?_
      rw [admitZone_served _ _ _ _ _ _ settled]
      rfl
  · intro least greatest out
    rw [extentFault_eq_orElse, positionFault_eq_find, positionFault_eq_find]
    simp only [← Option.map_or, ← List.find?_append]
    rfl
  · intro p tag b s settled c takes refused full box passes
    have run := exec_zoneAdd p tag b s takes settled
    have answer : ∀ status code, zoneAdd p tag b (s.served p c [] []) = (s.served p c [] []).close p tag status 0 code →
        refused status code := by
      intro status code h
      exact run.trans (by rw [h, served_close]; rfl)
    refine ⟨fun kind => answer _ _ (zoneAdd_unknownKind _ _ _ _ (zoneKindOf_unknown kind)),
      fun kind rig => answer _ _ (zoneAdd_notPermitted _ _ _ _ (zoneKindOf_keepIn kind) rig), fun kind => ?_⟩
    obtain ⟨k, known, allowed⟩ := zoneKindOf_allowed p b.kind kind
    refine ⟨fun code extent => answer _ _ (zoneAdd_badExtent _ _ _ _ _ known allowed code extent), fun extent =>
      ⟨fun long => answer _ _ (zoneAdd_longLifetime _ _ _ _ _ known allowed extent long), fun life =>
        ⟨fun taken => answer _ _ (zoneAdd_tableFull _ _ _ _ _ known allowed extent (by omega)
          (by rw [served_zones]; exact (freeNumber_eq_none_iff _).2 taken)), fun keepIn room => ?_⟩⟩⟩
    obtain rfl : p = .safety := (kind.resolve_left (by omega)).2
    obtain ⟨n, free⟩ := Option.ne_none_iff_exists'.1 (mt (freeNumber_eq_none_iff s.zones).1 room)
    have conflict := fun code => exec_zoneAdd_conflict tag b n code s takes settled keepIn extent life free
    refine ⟨fun x => ?_, fun x y => ?_, fun x y z => ?_, fun w inside rigged fails least => ?_⟩
    · exact conflict 0 (keepInFault_empty _ _ _ (if_pos x))
    · exact conflict 1 (keepInFault_empty _ _ _ ((if_neg (not_lt.2 x)).trans (if_pos y)))
    · exact conflict 2 (keepInFault_empty _ _ _ ((if_neg (not_lt.2 x)).trans ((if_neg (not_lt.2 y)).trans (if_pos z))))
    · exact conflict _ (keepInFault_winch s _ w inside rigged ((lineRangeFault_eq_some_iff _ _ _).2 ⟨fails, least⟩))

end Sys2Proof.Proofs
end

section
namespace Sys2Proof.Proofs
open Sys2Proof.Machine

/-! ## What a stored setting leaves (R8, R11, Tables 1-2 and 1-3) -/

theorem within_eq_some_iff {α : Type} (lo hi n : Int) (a b : α) : within lo hi n a = some b ↔ (lo ≤ n ∧ n ≤ hi) ∧ a = b := by
  simp [within]

theorem within_eq_none_iff {α : Type} (lo hi n : Int) (a : α) : within lo hi n a = none ↔ ¬(lo ≤ n ∧ n ≤ hi) := by
  simp [within]

/-- Two numbers in range name different winches or lanes. -/
theorem ofNat_ne_ofNat (n i j : Nat) [NeZero n] (hi : i < n) (hj : j < n) (h : i ≠ j) : Fin.ofNat n i ≠ Fin.ofNat n j := by
  simpa [Fin.ext_iff, Nat.mod_eq_of_lt hi, Nat.mod_eq_of_lt hj] using h

/-- A rig setting that is stored changes no setting of another identifier: each identifier writes a field of its own, so
the cases are the identifier stored and the identifier read. -/
theorem storeRig_otherId (s : State) (q : Port) (id index id' index' : Nat) (v : Vec3) (st : Settings)
    (h : storeRig s.settings id index v = some st) (ne : id' ≠ id) :
    settingValue { s with settings := st } q id' index' = settingValue s q id' index' := by
  unfold storeRig at h
  dsimp only at h
  split at h <;> simp only [within_eq_some_iff, Option.map_eq_some_iff, Option.ite_none_right_eq_some, Option.some.injEq, reduceCtorEq] at h
  all_goals
    first
    | obtain ⟨-, rfl⟩ := h
    | obtain ⟨m, -, rfl⟩ := h
    unfold settingValue
    split <;> first | rfl | exact absurd rfl ne

/-- A live setting that is stored changes no setting of another identifier. -/
theorem storeLive_otherId (s : State) (q : Port) (id index id' index' : Nat) (n : Int) (ne : id' ≠ id) :
    settingValue { s with settings := storeLive s.settings id index n } q id' index' = settingValue s q id' index' := by
  unfold storeLive
  dsimp only
  split
  all_goals
    unfold settingValue
    split <;> first | rfl | exact absurd rfl ne

theorem quad_get_set_ofNat {α : Type} (q : Quad α) (a : α) (i j : Nat) (hi : i < 4) (hj : j < 4) (h : j ≠ i) :
    (q.set (Fin.ofNat 4 i) a).get (Fin.ofNat 4 j) = q.get (Fin.ofNat 4 j) := by
  rw [quad_get_set, if_neg (ofNat_ne_ofNat 4 j i hj hi h)]

theorem oct_get_set_ofNat {α : Type} (q : Oct α) (a : α) (i j : Nat) (hi : i < 8) (hj : j < 8) (h : j ≠ i) :
    (q.set (Fin.ofNat 8 i) a).get (Fin.ofNat 8 j) = q.get (Fin.ofNat 8 j) := by
  rw [oct_get_set, if_neg (ofNat_ne_ofNat 8 j i hj hi h)]

/-- A rig setting that is stored at one index changes none at another: an identifier without an index has the one
index 0, and the others write one winch, one lane or one coefficient. -/
theorem storeRig_otherIndex (s : State) (q : Port) (id index index' : Nat) (v : Vec3) (st : Settings)
    (h : storeRig s.settings id index v = some st) (valid : settingClass id index ≠ none)
    (valid' : settingClass id index' ≠ none) (ne : index' ≠ index) :
    settingValue { s with settings := st } q id index' = settingValue s q id index' := by
  unfold storeRig at h
  dsimp only at h
  split at h <;> simp only [within_eq_some_iff, Option.map_eq_some_iff, Option.ite_none_right_eq_some, Option.some.injEq,
    reduceCtorEq] at h
  all_goals
    first
    | obtain ⟨-, rfl⟩ := h
    | obtain ⟨m, -, rfl⟩ := h
    simp only [settingClass, settingKind, ne_eq, ite_eq_right_iff, reduceCtorEq, imp_false, not_not] at valid valid'
    first
    | omega
    | simp only [settingValue, quad_get_set_ofNat _ _ _ _ valid valid' ne]
    | simp only [settingValue, oct_get_set_ofNat _ _ _ _ valid valid' ne]
    | simp only [settingValue, List.getD_eq_getElem?_getD, List.getElem?_set_ne ne.symm]

/-- A live setting that is stored at one index changes none at another. -/
theorem storeLive_otherIndex (s : State) (q : Port) (id index index' : Nat) (n : Int)
    (valid : settingClass id index ≠ none) (valid' : settingClass id index' ≠ none) (ne : index' ≠ index) :
    settingValue { s with settings := storeLive s.settings id index n } q id index' = settingValue s q id index' := by
  unfold storeLive
  dsimp only
  split
  case h_9 => rfl
  all_goals
    simp only [settingClass, settingKind, ne_eq, ite_eq_right_iff, reduceCtorEq, imp_false, not_not] at valid valid'
    first
    | omega
    | simp only [settingValue, quad_get_set_ofNat _ _ _ _ valid valid' ne]

/-- Every other setting reads as before: the frame of a SET of a rig setting. -/
theorem storeRig_other (s : State) (q : Port) (id index id' index' : Nat) (v : Vec3) (st : Settings)
    (h : storeRig s.settings id index v = some st) (valid : settingClass id index ≠ none)
    (valid' : settingClass id' index' ≠ none) (ne : (id', index') ≠ (id, index)) :
    settingValue { s with settings := st } q id' index' = settingValue s q id' index' := by
  by_cases e : id' = id
  · subst e
    exact storeRig_otherIndex s q id' index index' v st h valid valid' (by simpa using ne)
  · exact storeRig_otherId s q id index id' index' v st h e

theorem storeLive_other (s : State) (q : Port) (id index id' index' : Nat) (n : Int)
    (valid : settingClass id index ≠ none) (valid' : settingClass id' index' ≠ none) (ne : (id', index') ≠ (id, index)) :
    settingValue { s with settings := storeLive s.settings id index n } q id' index' = settingValue s q id' index' := by
  by_cases e : id' = id
  · subst e
    exact storeLive_otherIndex s q id' index index' n valid valid' (by simpa using ne)
  · exact storeLive_otherId s q id index id' index' n e

theorem positionFault_eq_none_iff (v : Vec3) : positionFault v = none ↔
    -100000 ≤ v.x ∧ v.x ≤ 100000 ∧ -100000 ≤ v.y ∧ v.y ≤ 100000 ∧ 0 ≤ v.z ∧ v.z ≤ 80000 := by
  rw [positionFault_eq_find]
  simp
  omega

/-- Table 1-2: a rig setting that restarts nothing is stored exactly when its rule allows the value. -/
theorem storeRig_plain (st : Settings) (id index : Nat) (v : Vec3) (ok : Bool) (kept : Vec3)
    (h : plainRule id v = some (ok, kept)) : (storeRig st id index v).isSome = ok := by
  unfold plainRule at h
  split at h
  · obtain ⟨rfl, rfl⟩ := Prod.mk.inj (Option.some.inj h)
    by_cases p : positionFault v = none
    · simp [storeRig, p, (positionFault_eq_none_iff v).1 p]
    · simp [storeRig, p, ← positionFault_eq_none_iff]
  · obtain ⟨rfl, rfl⟩ := Prod.mk.inj (Option.some.inj h)
    by_cases p : v.x = 250 ∨ v.x = 500 ∨ v.x = 1000 <;> simp [storeRig, p]
  · unfold plainRange at h
    split at h
    case h_14 => simp at h
    all_goals
      obtain ⟨rfl, rfl⟩ := Prod.mk.inj (Option.some.inj h)
      simp only [storeRig, within]
      split <;> simp [*]

theorem toNat_ofInt_of_range (k : Nat) (n : Int) (low : 0 ≤ n) (high : n < 2 ^ k) : ((BitVec.ofInt k n).toNat : Int) = n := by
  rw [BitVec.toNat_ofInt, Int.toNat_of_nonneg (Int.emod_nonneg _ (by positivity))]
  exact Int.emod_eq_of_lt low (by exact_mod_cast high)

/-- Table 1-2: what GET returns for it once it is stored. -/
theorem settingValue_storeRig_plain (s : State) (q : Port) (id index : Nat) (v : Vec3) (st : Settings) (ok : Bool)
    (kept : Vec3) (h : plainRule id v = some (ok, kept)) (stored : storeRig s.settings id index v = some st) :
    settingValue { s with settings := st } q id index = kept := by
  unfold plainRule at h
  split at h
  · obtain ⟨-, rfl⟩ := Prod.mk.inj (Option.some.inj h)
    simp only [storeRig, Option.ite_none_right_eq_some, Option.some.injEq] at stored
    obtain ⟨-, rfl⟩ := stored
    simp only [settingValue, quad_get_set, if_pos]
  · obtain ⟨-, rfl⟩ := Prod.mk.inj (Option.some.inj h)
    simp only [storeRig, Option.ite_none_right_eq_some, Option.some.injEq] at stored
    obtain ⟨-, rfl⟩ := stored
    rfl
  · unfold plainRange at h
    split at h
    case h_14 => simp at h
    all_goals
      obtain ⟨-, rfl⟩ := Prod.mk.inj (Option.some.inj h)
      simp only [storeRig, within_eq_some_iff] at stored
      obtain ⟨⟨low, high⟩, rfl⟩ := stored
    case h_10 => simp only [settingValue, oneNumber, Int.toNat_of_nonneg low]
    case h_11 => simp only [settingValue, oneNumber, toNat_ofInt_of_range 11 _ low (by omega)]
    case h_12 => simp only [settingValue, oneNumber, toNat_ofInt_of_range 11 _ low (by omega)]
    all_goals simp only [settingValue, oneNumber, quad_get_set, oct_get_set, if_pos]

/-! ## The settings that restart lanes (R13, Table 1-2) -/

/-- R8, Table 11-1: the numbers of LANE_MAP and the mapping that they name. -/
theorem mappingOf_eq_some_iff (v : Vec3) (m : Option CellName) : mappingOf v = some m ↔
    (v.x = -1 ∧ m = none) ∨ ∃ w : Winch, v.x = w.val ∧ ((v.y = 0 ∧ m = some ⟨w, .a⟩) ∨ (v.y = 1 ∧ m = some ⟨w, .b⟩)) := by
  constructor
  · unfold mappingOf
    split_ifs with unused range cellA cellB
    · rintro ⟨⟩
      exact .inl ⟨unused, rfl⟩
    · rintro ⟨⟩
      exact .inr ⟨_, by simp only [Fin.ofNat]; omega, .inl ⟨cellA, rfl⟩⟩
    · rintro ⟨⟩
      exact .inr ⟨_, by simp only [Fin.ofNat]; omega, .inr ⟨cellB, rfl⟩⟩
    · rintro ⟨⟩
    · rintro ⟨⟩
  · have named : ∀ w : Winch, ¬(w.val : Int) = -1 ∧ (0 ≤ (w.val : Int) ∧ (w.val : Int) ≤ 3) ∧
        Fin.ofNat 4 (w.val : Int).toNat = w := by decide
    rintro (⟨x, rfl⟩ | ⟨w, x, ⟨y, rfl⟩ | ⟨y, rfl⟩⟩)
    · simp only [mappingOf, x, if_pos]
    · obtain ⟨used, range, same⟩ := named w
      simp only [mappingOf, x, y, if_neg used, if_pos range, if_pos, same]
    · obtain ⟨used, range, same⟩ := named w
      simp only [mappingOf, x, y, if_neg used, if_pos range, one_ne_zero, if_false, if_pos, same]

theorem laneFormatOf_eq_some_iff (n : Int) (f : LaneFormat) :
    laneFormatOf n = some f ↔ (n = 0 ∧ f = .offset) ∨ (n = 1 ∧ f = .twos) := by
  unfold laneFormatOf
  split_ifs <;> simp [*, eq_comm]

theorem filterModeOf_eq_some_iff (n : Int) (m : FilterMode) :
    filterModeOf n = some m ↔ (n = 0 ∧ m = .builtIn) ∨ (n = 1 ∧ m = .custom) := by
  unfold filterModeOf
  split_ifs <;> simp [*, eq_comm]

/-- Table 1-2: what storing one of the four lane settings gives. -/
theorem storeRig_lane_iff (st st' : Settings) (id : Nat) (l : Lane) (v : Vec3)
    (h : id = 0x10 ∨ id = 0x11 ∨ id = 0x12 ∨ id = 0x14) : storeRig st id l.val v = some st' ↔ laneSet st id l v st' := by
  have lane : Fin.ofNat 8 l.val = l := Fin.ofNat_val_eq_self l
  obtain rfl | rfl | rfl | rfl := h
  · simp only [storeRig, laneSet, lane, Option.map_eq_some_iff, mappingOf_eq_some_iff, Nat.reduceEqDiff, true_and, false_and,
      or_false]
    constructor
    · rintro ⟨m, ⟨x, rfl⟩ | ⟨w, x, ⟨y, rfl⟩ | ⟨y, rfl⟩⟩, rfl⟩
      · exact .inl ⟨x, rfl⟩
      · exact .inr (.inl ⟨w, x, y, rfl⟩)
      · exact .inr (.inr ⟨w, x, y, rfl⟩)
    · rintro (⟨x, rfl⟩ | ⟨w, x, y, rfl⟩ | ⟨w, x, y, rfl⟩)
      · exact ⟨_, .inl ⟨x, rfl⟩, rfl⟩
      · exact ⟨_, .inr ⟨w, x, .inl ⟨y, rfl⟩⟩, rfl⟩
      · exact ⟨_, .inr ⟨w, x, .inr ⟨y, rfl⟩⟩, rfl⟩
  · simp only [storeRig, laneSet, lane, Option.map_eq_some_iff, laneFormatOf_eq_some_iff, Nat.reduceEqDiff, true_and,
      false_and, or_false, false_or, exists_false]
    constructor
    · rintro ⟨m, ⟨x, rfl⟩ | ⟨x, rfl⟩, rfl⟩
      · exact .inl ⟨x, rfl⟩
      · exact .inr ⟨x, rfl⟩
    · rintro (⟨x, rfl⟩ | ⟨x, rfl⟩)
      · exact ⟨_, .inl ⟨x, rfl⟩, rfl⟩
      · exact ⟨_, .inr ⟨x, rfl⟩, rfl⟩
  · simp [storeRig, laneSet, within_eq_some_iff, and_assoc, eq_comm (b := st')]
  · simp [storeRig, laneSet, and_assoc, eq_comm (b := st')]

/-- Table 1-2: what storing a setting of the filter gives. -/
theorem storeRig_filter_iff (st st' : Settings) (id index : Nat) (v : Vec3) (h : id = 0x15 ∨ id = 0x16) :
    storeRig st id index v = some st' ↔ filterSet st id index v st' := by
  obtain rfl | rfl := h
  · simp only [storeRig, filterSet, Option.map_eq_some_iff, filterModeOf_eq_some_iff, Nat.reduceEqDiff, true_and, false_and,
      or_false]
    constructor
    · rintro ⟨m, ⟨x, rfl⟩ | ⟨x, rfl⟩, rfl⟩
      · exact .inl ⟨x, rfl⟩
      · exact .inr ⟨x, rfl⟩
    · rintro (⟨x, rfl⟩ | ⟨x, rfl⟩)
      · exact ⟨_, .inl ⟨x, rfl⟩, rfl⟩
      · exact ⟨_, .inr ⟨x, rfl⟩, rfl⟩
  · simp [storeRig, filterSet, within_eq_some_iff, and_assoc, eq_comm (b := st')]

theorem laneSet_id (st st' : Settings) (id : Nat) (l : Lane) (v : Vec3) (h : laneSet st id l v st') :
    id = 0x10 ∨ id = 0x11 ∨ id = 0x12 ∨ id = 0x14 := by
  unfold laneSet at h
  tauto

theorem filterSet_id (st st' : Settings) (id index : Nat) (v : Vec3) (h : filterSet st id index v st') :
    id = 0x15 ∨ id = 0x16 := by
  unfold filterSet at h
  tauto

/-- What GET returns for a lane setting that has been stored. -/
theorem settingValue_laneSet (s : State) (q : Port) (st' : Settings) (id : Nat) (l : Lane) (v : Vec3)
    (h : laneSet s.settings id l v st') : settingValue { s with settings := st' } q id l.val =
      if id = 0x10 then (if v.x = -1 then ⟨-1, 0, 0⟩ else ⟨v.x, v.y, 0⟩)
      else if id = 0x14 then ⟨v.x, v.y, 0⟩ else ⟨v.x, 0, 0⟩ := by
  have lane : Fin.ofNat 8 l.val = l := Fin.ofNat_val_eq_self l
  obtain ⟨rfl, x, rfl⟩ | ⟨w, rfl, x, y, rfl⟩ | ⟨w, rfl, x, y, rfl⟩ | ⟨rfl, x, rfl⟩ | ⟨rfl, x, rfl⟩ | ⟨rfl, low, high, rfl⟩ |
    ⟨rfl, lowA, highA, lowB, highB, rfl⟩ := h
  · simp [settingValue, oct_get_set, mappingValue, x]
  · have used : ¬(w.val : Int) = -1 := by omega
    simp [settingValue, oct_get_set, mappingValue, Cell.code, x, y, used]
  · have used : ¬(w.val : Int) = -1 := by omega
    simp [settingValue, oct_get_set, mappingValue, Cell.code, x, y, used]
  · simp [settingValue, oct_get_set, oneNumber, LaneFormat.code, x]
  · simp [settingValue, oct_get_set, oneNumber, LaneFormat.code, x]
  · simp [settingValue, oct_get_set, oneNumber]
  · simp only [settingValue, lane, oct_get_set, if_pos, toNat_ofInt_of_range 16 _ lowA (by omega),
      toNat_ofInt_of_range 16 _ lowB (by omega), Nat.reduceEqDiff, if_false]

/-- What GET returns for a setting of the filter that has been stored. -/
theorem settingValue_filterSet (s : State) (q : Port) (st' : Settings) (id index : Nat) (v : Vec3)
    (h : filterSet s.settings id index v st') (range : index < s.settings.filterCoeff.length) :
    settingValue { s with settings := st' } q id index = ⟨v.x, 0, 0⟩ := by
  obtain ⟨rfl, x, rfl⟩ | ⟨rfl, x, rfl⟩ | ⟨rfl, low, high, rfl⟩ := h
  · simp [settingValue, oneNumber, FilterMode.code, x]
  · simp [settingValue, oneNumber, FilterMode.code, x]
  · simp [settingValue, oneNumber, range]

/-- Table 1-3: the identifiers of the live settings. -/
theorem live_id (id index : Nat) (h : settingClass id index = some .live) : 0x40 ≤ id ∧ id ≤ 0x47 := by
  have kind : ∀ count, settingKind id = some (.live, count) → 0x40 ≤ id ∧ id ≤ 0x47 := by
    intro count k
    unfold settingKind at k
    split at k <;> simp at k <;> omega
  unfold settingClass at h
  split at h
  next c count k =>
    obtain ⟨-, rfl⟩ : index < count ∧ c = .live := by simpa using h
    exact kind count k
  next => simp at h

/-- What GET returns for a live setting that has been stored. -/
theorem settingValue_storeLive (s : State) (q : Port) (id index : Nat) (n : Int)
    (h : settingClass id index = some .live) :
    settingValue { s with settings := storeLive s.settings id index n } q id index = ⟨n, 0, 0⟩ := by
  obtain ⟨low, high⟩ := live_id id index h
  interval_cases id <;> simp only [storeLive, settingValue, oneNumber, quad_get_set, if_pos]

end Sys2Proof.Proofs
end

section
namespace Sys2Proof.Proofs
open Sys2Proof.Machine

/-! ## SET and GET (R7 to R11) -/

theorem exec_set (p : Port) (tag : Byte) (id index : Nat) (v : Vec3) (s : State)
    (takes : s.takes p (.set p tag id index v) = true) :
    exec (.set p tag id index v) s = .next (setSetting p tag id index v (s.served p (.set p tag id index v) [] [])) :=
  congrArg Host.Outcome.next (take_of_takes _ _ _ _ _ takes)

theorem exec_get (p : Port) (tag : Byte) (id index : Nat) (s : State) (takes : s.takes p (.get p tag id index) = true) :
    exec (.get p tag id index) s = .next (getSetting p tag id index (s.served p (.get p tag id index) [] [])) :=
  congrArg Host.Outcome.next (take_of_takes _ _ _ _ _ takes)

/-- What is queued at a port is neither its request nor its interval nor its service. -/
theorem heard_keeps (r : PortRec) (ns : List Notice) : (r.heard ns).passed = r.passed ∧ (r.heard ns).interval = r.interval ∧
    (r.heard ns).service = r.service ∧ (r.heard ns).due = r.due := by
  obtain ⟨notices, overflow, h⟩ := heard_frame ns r
  rw [h]
  exact ⟨rfl, rfl, rfl, rfl⟩

theorem taken_keeps (r : PortRec) (c : Instr) : (r.taken c).interval = r.interval ∧ (r.taken c).service = r.service ∧
    (r.taken c).due = r.due := by
  unfold PortRec.taken
  split <;> exact ⟨rfl, rfl, rfl⟩

theorem served_interval (s : State) (p q : Port) (c : Instr) (as : List Answer) (ns : List Notice) :
    ((s.served p c as ns).port q).interval = (s.port q).interval := by
  cases p <;> cases q <;> simp [State.served, State.port, heard_keeps, taken_keeps, PortRec.answered]

theorem served_due (s : State) (p q : Port) (c : Instr) (as : List Answer) (ns : List Notice) :
    ((s.served p c as ns).port q).due = (s.port q).due := by
  cases p <;> cases q <;> simp [State.served, State.port, heard_keeps, taken_keeps, PortRec.answered]

theorem settingValue_served (s : State) (p q : Port) (c : Instr) (as : List Answer) (ns : List Notice) (id index : Nat) :
    settingValue (s.served p c as ns) q id index = settingValue s q id index := by
  simp only [settingValue, served_settings, served_interval]

/-- A rig setting is refused while rigged, and for a value that is not stored; else it is stored with what it restarts. -/
theorem exec_set_rig (p : Port) (tag : Byte) (id index : Nat) (v : Vec3) (s : State)
    (rig : settingClass id index = some .rig) (takes : s.takes p (.set p tag id index v) = true) :
    let c : Instr := .set p tag id index v
    (s.rigged = true → exec c s = .next (s.served p c [closing tag .wrongMode id index] [])) ∧
    (s.rigged = false → storeRig s.settings id index v = none →
      exec c s = .next (s.served p c [closing tag .outOfRange id index] [])) ∧
    ∀ st, s.rigged = false → storeRig s.settings id index v = some st →
      exec c s = .next ((rigEffects id index s.settings.laneMap (State.served { s with settings := st } p c [] [])).close p
        tag .ok id index) := by
  intro c
  have run : exec c s = .next (setRig p tag id index v (s.served p c [] [])) := by
    rw [exec_set _ _ _ _ _ _ takes]
    simp only [setSetting, rig, c]
  refine ⟨fun rigged => ?_, fun free none_ => ?_, fun st free stored => ?_⟩
  · rw [run, setRig, if_pos (by simpa using rigged), served_close]
    rfl
  · rw [run, setRig, if_neg (by simp [free])]
    simp only [served_settings, none_, served_close]
    rfl
  · rw [run, setRig, if_neg (by simp [free])]
    simp only [served_settings, stored]
    simp

/-- A rig setting with a plain rule restarts nothing. -/
theorem rigEffects_plain (id index : Nat) (v : Vec3) (before : Oct (Option CellName)) (s : State) (r : Bool × Vec3)
    (h : plainRule id v = some r) : rigEffects id index before s = s := by
  unfold rigEffects
  dsimp only
  split <;> first | rfl | simp [plainRule, plainRange] at h

/-- R9, R10: a live setting, clamped, is stored when its ordering holds. -/
theorem exec_set_live (p : Port) (tag : Byte) (id index : Nat) (v : Vec3) (s : State)
    (live : settingClass id index = some .live) (takes : s.takes p (.set p tag id index v) = true) :
    let c : Instr := .set p tag id index v
    let n := clampLive id v.x
    let st := storeLive s.settings id index n
    (s.rigged = true → p = .rig → exec c s = .next (s.served p c [closing tag .notPermitted id index] [])) ∧
    (s.rigged = false ∨ p = .safety → liveOrdered st id index = true →
      exec c s = .next (State.served { s with settings := st } p c
        [closing tag (if n = v.x then .ok else .clamped) id index] [])) ∧
    (s.rigged = false ∨ p = .safety → liveOrdered st id index = false →
      exec c s = .next (s.served p c [closing tag .conflict id index] [])) := by
  intro c n st
  have run : exec c s = .next (setLive p tag id index v.x (s.served p c [] [])) := by
    rw [exec_set _ _ _ _ _ _ takes]
    simp only [setSetting, live, c]
  have status : clampStatus (n != v.x) = if n = v.x then .ok else .clamped := by
    by_cases e : n = v.x <;> simp [clampStatus, e]
  have allowed : s.rigged = false ∨ p = .safety → ((s.served p c [] []).rigged && p == .rig) = false := by
    rintro (free | rfl)
    · simp [free]
    · simp
  refine ⟨fun rigged rig => ?_, fun may ordered => ?_, fun may unordered => ?_⟩
  · rw [run, setLive, if_pos (by simp [rigged, rig]), served_close]
    rfl
  · rw [run, setLive, allowed may, if_neg Bool.false_ne_true, ← status]
    simp only [served_settings]
    rw [if_pos ordered]
    simp [st, n]
  · rw [run, setLive, allowed may, if_neg Bool.false_ne_true]
    simp only [served_settings]
    rw [if_neg (by simpa using unordered), served_close]
    rfl

/-- R10: the orderings, for the value that is stored in the place of the one that is held. -/
theorem liveOrdered_iff (st : Settings) (id index : Nat) (n : Int) (live : settingClass id index = some .live) :
    let w : Winch := Fin.ofNat 4 index
    let held := fun (other : Nat) (old : Int) => if id = other then n else old
    liveOrdered (storeLive st id index n) id index = true ↔
      ((id = 0x41 ∨ id = 0x42 ∨ id = 0x43) → held 0x41 (st.tensionSlack.get w) < held 0x42 (st.tensionWarn.get w) ∧
        held 0x42 (st.tensionWarn.get w) < held 0x43 (st.tensionMax.get w)) ∧
      ((id = 0x45 ∨ id = 0x46) → held 0x45 st.windFull < held 0x46 st.windStop) := by
  obtain ⟨low, high⟩ := live_id id index live
  dsimp only
  interval_cases id <;> simp [liveOrdered, storeLive, tensionOrdered, quad_get_set]

theorem clampInterval_eq (n : Int) : clampInterval n = if n ≤ 0 then 0 else (max 5 (min n 250)).toNat := by
  unfold clampInterval
  split_ifs <;> omega

end Sys2Proof.Proofs
end

section
namespace Sys2Proof.Proofs
open Sys2Proof.Machine

/-! ## What a lane setting restarts (R13, R136, R141) -/

theorem queueNotice_taken (r : PortRec) (n : Notice) (c : Instr) :
    (r.queueNotice n).taken c = (r.taken c).queueNotice n := by
  by_cases full : r.notices.length < Config.maxNotices <;> by_cases mine : r.passed = some c <;>
    simp only [PortRec.queueNotice, PortRec.taken, full, mine, if_pos, if_false]

theorem heard_taken (ns : List Notice) (r : PortRec) (c : Instr) : (r.heard ns).taken c = (r.taken c).heard ns := by
  induction ns generalizing r with
  | nil => rfl
  | cons n ns ih => exact (ih (r.queueNotice n)).trans (by rw [queueNotice_taken]; rfl)

/-- Notices queued before a request is taken stand before its own. -/
theorem told_served (s : State) (p : Port) (c : Instr) (as : List Answer) (ms ns : List Notice) :
    (s.told ms).served p c as ns = s.served p c as (ms ++ ns) := by
  cases p <;> simp [State.told, State.served, heard_taken, heard_answered, heard_append]

theorem served_close_nil (s : State) (p : Port) (c : Instr) (tag : Byte) (st : Status) (d1 d2 : Nat) :
    (s.served p c [] []).close p tag st d1 d2 = s.served p c [closing tag st d1 d2] [] := served_close ..

/-- R13: the part once a SET has stored `st'` and returned lane `l` to UNCHECKED, its winches as `winches` gives them. -/
def laneRestarted (s : State) (st' : Settings) (l : Lane) (winches : Quad WinchRec) : State :=
  let r := s.tension.lanes.get l
  State.told { s with
      settings := st'
      tension := { s.tension with
        lanes := s.tension.lanes.set l { r with
          state := .unchecked, history := [], samples := 0, valid := false, watch := false, check := none }
        winches := winches } }
    [.lane .setting l .unchecked r.state (st'.laneMap.get l) 0]

theorem laneRestarted_served (s : State) (p : Port) (c : Instr) (st' : Settings) (l : Lane) (winches : Quad WinchRec) :
    laneRestarted (s.served p c [] []) st' l winches = (laneRestarted s st' l winches).served p c [] [] := by
  simp [laneRestarted, told_served]

/-- A lane setting that is stored resets its lane. -/
theorem settingReset_lane (s : State) (st' : Settings) (l : Lane) :
    (({ s with settings := st' } : State).setLane l { (s.tension.lanes.get l).emptied with
      state := .unchecked, watch := false, check := none }).laneNotice l .setting (s.tension.lanes.get l).state 0 =
      laneRestarted s st' l s.tension.winches := by
  simp [State.laneNotice, State.setLane, LaneRec.emptied, laneRestarted, oct_get_set]

section Reset

variable (s : State) (st' : Settings) (l : Lane) (before : Option CellName)

theorem settingReset_checking (h : (s.tension.lanes.get l).state = .checking) :
    settingReset l before { s with settings := st' } =
      closeCheck (laneRestarted s st' l s.tension.winches) l .ok 0xFF := by
  rw [← settingReset_lane]
  simp only [settingReset, h]

theorem settingReset_good (h : (s.tension.lanes.get l).state = .good) :
    settingReset l before { s with settings := st' } = freshnessOf (laneRestarted s st' l s.tension.winches) before := by
  rw [← settingReset_lane]
  simp only [settingReset, h]

theorem settingReset_idle (h : (s.tension.lanes.get l).state ≠ .checking)
    (idle : (s.tension.lanes.get l).state ≠ .good ∨ before = none) :
    settingReset l before { s with settings := st' } = laneRestarted s st' l s.tension.winches := by
  by_cases good : (s.tension.lanes.get l).state = .good
  · rw [settingReset_good s st' l before good, idle.resolve_left (not_not.2 good), freshnessOf]
  · rw [← settingReset_lane]
    simp only [settingReset]

end Reset

theorem cellFresh_iff (st : Settings) (t : Tension) (w : Winch) (c : Cell) : cellFresh st t w c = true ↔
    ∃ k, st.laneMap.get k = some ⟨w, c⟩ ∧ (t.lanes.get k).state = .good ∧ (t.lanes.get k).valid = true := by
  simp only [cellFresh, lanes_any_iff, LaneRec.fresh, Bool.and_eq_true, beq_iff_eq]

/-- R136: while OFFLINE a freshness update re-forms the winch, and neither forms the cap nor hands a report. -/
theorem freshnessUpdate_offline (s : State) (w : Winch) (h : s.rigged = false) : freshnessUpdate s w = reformWinch s w := by
  have rig : (reformWinch s w).rigged = false := h
  simp [freshnessUpdate, formTensionCap, rig]

/-- The port once the check that it holds has been answered. -/
def PortRec.checked (r : PortRec) (a : Answer) : PortRec := { r with service := none, answers := r.answers ++ [a] }

/-- R170: the check of a lane is closed at the port that holds it. -/
theorem closeCheck_eq (s : State) (q : Port) (l : Lane) (st : Status) (d : Nat) (held : Service)
    (service : (s.port q).service = some held) (work : held.work = .laneCheck l)
    (others : ∀ o, o ≠ q → (s.port o).checks l = false) :
    closeCheck s l st d =
      s.setPort q (PortRec.checked (s.port q) (closing held.tag st l.val d)) := by
  have holds : (s.port q).checks l = true := by simp [PortRec.checks, service, work]
  have at_ : closeCheck s l st d = closeCheckAt s q l st d := by
    cases q with
    | rig => exact if_pos holds
    | safety =>
      have rig := others .rig (by simp)
      simp only [State.port] at holds rig
      simp [closeCheck, holds, rig]
  rw [at_, closeCheckAt, service]
  cases q <;> rfl

theorem checked_taken (r : PortRec) (c : Instr) (a : Answer) : (PortRec.checked r a).taken c = PortRec.checked (r.taken c) a := by
  by_cases h : r.passed = some c <;> simp [PortRec.checked, PortRec.taken, h]

theorem taken_answered_nil (r : PortRec) : (r.answered []).heard [] = r := by
  simp [PortRec.answered, PortRec.heard]

/-- The answer of a check and the taking of a request do not depend on each other's order. -/
theorem setPort_checked_served (s : State) (p q : Port) (c : Instr) (a : Answer) :
    (s.served p c [] []).setPort q (PortRec.checked ((s.served p c [] []).port q) a) =
      (s.setPort q (PortRec.checked (s.port q) a)).served p c [] [] := by
  cases p <;> cases q
  · simp only [State.served, State.setPort, State.port, taken_answered_nil, checked_taken]
  · rfl
  · rfl
  · simp only [State.served, State.setPort, State.port, taken_answered_nil, checked_taken]

/-- A freshness update while OFFLINE, at a lane just restarted: the winch is formed from the cells still fresh. -/
theorem freshnessUpdate_laneRestarted (s : State) (st' : Settings) (l : Lane) (w : Winch) (h : s.rigged = false) :
    let t := (laneRestarted s st' l s.tension.winches).tension
    freshnessUpdate (laneRestarted s st' l s.tension.winches) w = laneRestarted s st' l (s.tension.winches.set w
      (formWinch st'.disagreeTol (cellFresh st' t w .a) (cellFresh st' t w .b) (s.tension.winches.get w))) := by
  intro t
  rw [freshnessUpdate_offline (laneRestarted s st' l s.tension.winches) w h]
  rfl

theorem settingClass_lane (id : Nat) (l : Lane) (h : id = 0x10 ∨ id = 0x11 ∨ id = 0x12 ∨ id = 0x14) :
    settingClass id l.val = some .rig := by
  obtain rfl | rfl | rfl | rfl := h <;> simp [settingClass, settingKind]

theorem rigEffects_lane (id : Nat) (l : Lane) (before : Oct (Option CellName)) (s : State)
    (h : id = 0x10 ∨ id = 0x11 ∨ id = 0x12 ∨ id = 0x14) :
    rigEffects id l.val before s = settingReset l (before.get l) s := by
  have lane : Fin.ofNat 8 l.val = l := Fin.ofNat_val_eq_self l
  obtain rfl | rfl | rfl | rfl := h <;> simp only [rigEffects, lane]

section SetLane

variable (p : Port) (tag : Byte) (id : Nat) (l : Lane) (v : Vec3) (s : State) (st' : Settings)
  (free : s.rigged = false) (set : laneSet s.settings id l v st') (takes : s.takes p (.set p tag id l.val v) = true)
include free set takes

/-- R13: a SET of a lane setting answers OK once the lane has been reset. -/
theorem exec_set_lane : exec (.set p tag id l.val v) s = .next (State.close (settingReset l (s.settings.laneMap.get l)
    { s.served p (.set p tag id l.val v) [] [] with settings := st' }) p tag .ok id l.val) := by
  have ids := laneSet_id _ _ _ _ _ set
  have stored := (storeRig_lane_iff s.settings st' id l v ids).2 set
  rw [(exec_set_rig p tag id l.val v s (settingClass_lane id l ids) takes).2.2 st' free stored, rigEffects_lane id l _ _ ids]
  simp

theorem exec_set_lane_idle (checking : (s.tension.lanes.get l).state ≠ .checking)
    (idle : (s.tension.lanes.get l).state ≠ .good ∨ s.settings.laneMap.get l = none) :
    exec (.set p tag id l.val v) s = .next ((laneRestarted s st' l s.tension.winches).served p (.set p tag id l.val v)
      [closing tag .ok id l.val] []) := by
  rw [exec_set_lane p tag id l v s st' free set takes, settingReset_idle _ _ _ _ (by simpa using checking)
    (by simpa using idle), laneRestarted_served, served_tension, served_close_nil]

theorem exec_set_lane_good (w : Winch) (cell : Cell) (good : (s.tension.lanes.get l).state = .good)
    (map : s.settings.laneMap.get l = some ⟨w, cell⟩) :
    let t := (laneRestarted s st' l s.tension.winches).tension
    exec (.set p tag id l.val v) s = .next ((laneRestarted s st' l (s.tension.winches.set w
        (formWinch st'.disagreeTol (cellFresh st' t w .a) (cellFresh st' t w .b) (s.tension.winches.get w)))).served p
      (.set p tag id l.val v) [closing tag .ok id l.val] []) := by
  intro t
  rw [exec_set_lane p tag id l v s st' free set takes, settingReset_good _ _ _ _ (by simpa using good), map]
  simp only [freshnessOf]
  rw [freshnessUpdate_laneRestarted _ _ _ _ (by simpa using free), laneRestarted_served, laneRestarted_served, served_tension,
    served_tension, served_close_nil]

theorem exec_set_lane_checking (q : Port) (held : Service) (checking : (s.tension.lanes.get l).state = .checking)
    (service : (s.port q).service = some held) (work : held.work = .laneCheck l)
    (others : ∀ o, o ≠ q → (s.port o).checks l = false) :
    let t := laneRestarted s st' l s.tension.winches
    exec (.set p tag id l.val v) s = .next (State.served
      (t.setPort q (PortRec.checked (t.port q) (closing held.tag .ok l.val 0xFF))) p (.set p tag id l.val v)
      [closing tag .ok id l.val] []) := by
  intro t
  have port_service : ∀ o, ((t.served p (.set p tag id l.val v) [] []).port o).service = (s.port o).service := by
    intro o
    cases p <;> cases o <;> simp [t, laneRestarted, State.served, State.told, State.port, heard_keeps, taken_keeps, PortRec.answered]
  rw [exec_set_lane p tag id l v s st' free set takes, settingReset_checking _ _ _ _ (by simpa using checking),
    laneRestarted_served, served_tension, closeCheck_eq _ q l _ _ held ((port_service q).trans service) work fun o ne => ?_,
    setPort_checked_served, served_close_nil]
  have := others o ne
  simpa only [PortRec.checks, port_service] using this

end SetLane

end Sys2Proof.Proofs
end

section
namespace Sys2Proof.Proofs
open Sys2Proof.Machine

/-! ## What a setting of the filter restarts (R13, R131) -/

theorem quad_ext {α : Type} (q r : Quad α) (h : ∀ w, q.get w = r.get w) : q = r := by
  obtain ⟨a, b, c, d⟩ := q
  obtain ⟨a', b', c', d'⟩ := r
  rw [Quad.mk.injEq]
  exact ⟨h 0, h 1, h 2, h 3⟩

@[simp] theorem oct_get_map {α β : Type} (q : Oct α) (f : α → β) (l : Lane) : (q.map f).get l = f (q.get l) := by
  fin_cases l <;> rfl

/-- The winches with no cell fresh at those of the list: the flag is NONE and the tension is kept. -/
def unfed (ws : List Winch) (q : Quad WinchRec) : Quad WinchRec :=
  let at_ := fun (w : Winch) (r : WinchRec) => if w ∈ ws then { r with flag := .none } else r
  ⟨at_ 0 q.w0, at_ 1 q.w1, at_ 2 q.w2, at_ 3 q.w3⟩

theorem unfed_get (ws : List Winch) (q : Quad WinchRec) (w : Winch) :
    (unfed ws q).get w = if w ∈ ws then { q.get w with flag := .none } else q.get w := by
  fin_cases w <;> rfl

theorem unfed_cons (w : Winch) (ws : List Winch) (q : Quad WinchRec) :
    unfed ws (q.set w { q.get w with flag := .none }) = unfed (w :: ws) q := by
  refine quad_ext _ _ fun v => ?_
  rw [unfed_get, unfed_get, quad_get_set]
  by_cases mine : v = w
  · subst mine
    by_cases mem : v ∈ ws <;> simp [mem]
  · simp [mine]

/-- R136: while OFFLINE and with no cell fresh, the freshness updates of a list of winches leave each at NONE. -/
theorem foldl_freshnessUpdate_stale (ws : List Winch) (s : State) (free : s.rigged = false)
    (stale : ∀ w c, cellFresh s.settings s.tension w c = false) :
    ws.foldl freshnessUpdate s = { s with tension := { s.tension with winches := unfed ws s.tension.winches } } := by
  induction ws generalizing s with
  | nil => rfl
  | cons w ws ih =>
    have one : freshnessUpdate s w = s.setWinch w { s.tension.winches.get w with flag := .none } := by
      rw [freshnessUpdate_offline s w free, reformWinch, stale, stale]
      rfl
    rw [List.foldl_cons, one, ih (s.setWinch w { s.tension.winches.get w with flag := .none }) free stale, ← unfed_cons]
    rfl

/-- A lane that has been emptied makes no cell fresh. -/
theorem cellFresh_emptied (st : Settings) (lanes : Oct LaneRec) (winches : Quad WinchRec) (cap : Int) (w : Winch) (c : Cell) :
    cellFresh st ⟨lanes.map LaneRec.emptied, winches, cap⟩ w c = false := by
  rw [← Bool.not_eq_true, cellFresh_iff]
  rintro ⟨k, -, -, valid⟩
  simp [LaneRec.emptied] at valid

theorem mem_goodWinches (s : State) (w : Winch) : w ∈ lanes.filterMap (goodWinch s) ↔
    ∃ l, (s.tension.lanes.get l).state = .good ∧ (s.settings.laneMap.get l).map CellName.winch = some w := by
  simp only [List.mem_filterMap, mem_lanes, true_and, goodWinch, Option.ite_none_right_eq_some]

theorem goodWinch_served (s : State) (p : Port) (c : Instr) (as : List Answer) (ns : List Notice) :
    goodWinch (s.served p c as ns) = goodWinch s := by
  funext l
  simp only [goodWinch, served_tension, served_settings]

/-- R13, R131: a SET of the filter empties every lane, and each winch that a GOOD lane serves is at NONE. -/
theorem filterReset_eq (s : State) (free : s.rigged = false) : filterReset s = { s with
    tension := { s.tension with
      lanes := s.tension.lanes.map LaneRec.emptied
      winches := unfed (lanes.filterMap (goodWinch s)) s.tension.winches } } := by
  simp only [filterReset]
  exact foldl_freshnessUpdate_stale _ _ free fun w c => cellFresh_emptied ..

theorem exec_set_filter (p : Port) (tag : Byte) (id index : Nat) (v : Vec3) (s : State) (st' : Settings)
    (free : s.rigged = false) (rig : settingClass id index = some .rig) (set : filterSet s.settings id index v st')
    (takes : s.takes p (.set p tag id index v) = true) :
    exec (.set p tag id index v) s = .next (State.served { s with
        settings := st'
        tension := { s.tension with
          lanes := s.tension.lanes.map LaneRec.emptied
          winches := unfed (lanes.filterMap (goodWinch { s with settings := st' })) s.tension.winches } }
      p (.set p tag id index v) [closing tag .ok id index] []) := by
  have ids := filterSet_id _ _ _ _ _ set
  have stored := (storeRig_filter_iff s.settings st' id index v ids).2 set
  have effects : ∀ before t, rigEffects id index before t = filterReset t := by
    intro before t
    obtain rfl | rfl := ids <;> rfl
  rw [(exec_set_rig p tag id index v s rig takes).2.2 st' free stored, effects,
    filterReset_eq _ (by exact (served_rigged ..).trans free), goodWinch_served]
  simp

theorem filterSet_laneMap (st st' : Settings) (id index : Nat) (v : Vec3) (h : filterSet st id index v st') :
    st'.laneMap = st.laneMap := by
  obtain ⟨-, -, rfl⟩ | ⟨-, -, rfl⟩ | ⟨-, -, -, rfl⟩ := h <;> rfl

/-! ## The clauses of SetStoresAndGetReads -/

/-- R8: a rig setting that restarts nothing. -/
theorem exec_set_plain (p : Port) (tag : Byte) (id index : Nat) (v : Vec3) (s : State) (rig : settingClass id index = some .rig)
    (free : s.rigged = false) (kept : Vec3) (rule : plainRule id v = some (true, kept))
    (takes : s.takes p (.set p tag id index v) = true) : ∃ st : Settings,
    exec (.set p tag id index v) s =
        .next (State.served { s with settings := st } p (.set p tag id index v) [closing tag .ok id index] []) ∧
      (∀ q, settingValue { s with settings := st } q id index = kept) ∧
      ∀ id' index' q, settingClass id' index' ≠ none → (id', index') ≠ (id, index) →
        settingValue { s with settings := st } q id' index' = settingValue s q id' index' := by
  obtain ⟨st, stored⟩ := Option.isSome_iff_exists.1 (storeRig_plain s.settings id index v true kept rule)
  refine ⟨st, ?_, fun q => settingValue_storeRig_plain s q id index v st true kept rule stored,
    fun id' index' q valid ne => storeRig_other s q id index id' index' v st stored (by simp [rig]) valid ne⟩
  rw [(exec_set_rig p tag id index v s rig takes).2.2 st free stored, rigEffects_plain id index v _ _ _ rule,
    served_close_nil]

theorem settingClass_index_lt (id index : Nat) (h : settingClass id index ≠ none)
    (lane : id = 0x10 ∨ id = 0x11 ∨ id = 0x12 ∨ id = 0x14) : index < 8 := by
  obtain rfl | rfl | rfl | rfl := lane <;> simpa [settingClass, settingKind] using h

/-- R9, R174: TELEMETRY_INTERVAL is that of the port that asks. -/
theorem exec_set_interval (p : Port) (tag : Byte) (v : Vec3) (s : State) (takes : s.takes p (.set p tag 0x48 0 v) = true) :
    let c : Instr := .set p tag 0x48 0 v
    let n := clampInterval v.x
    let u := s.served p c [closing tag (if (n : Int) = v.x then .ok else .clamped) 0x48 0] []
    exec c s = .next (u.setPort p { u.port p with
      interval := n, countdown := n, due := if n = 0 then false else (s.port p).due }) := by
  intro c n u
  have status : clampStatus (decide ((n : Int) ≠ v.x)) = if (n : Int) = v.x then .ok else .clamped := by
    by_cases e : (n : Int) = v.x <;> simp [clampStatus, e]
  rw [exec_set _ _ _ _ _ _ takes]
  simp only [setSetting, show settingClass 0x48 0 = some .telemetry from rfl, setInterval, u, ← status, ← served_close_nil]
  rw [← served_due s p p c [] []]
  cases p <;> rfl

/-- R11. -/
theorem exec_get_cases (p : Port) (tag : Byte) (id index : Nat) (s : State)
    (takes : s.takes p (.get p tag id index) = true) :
    let c : Instr := .get p tag id index
    (settingClass id index ≠ none →
      exec c s = .next (s.served p c [closingItem tag (.setting id index (settingValue s p id index)) .ok 0 0] [])) ∧
    (settingClass id index = none → exec c s = .next (s.served p c [closing tag .outOfRange id index] [])) := by
  intro c
  refine ⟨fun valid => ?_, fun invalid => ?_⟩
  · obtain ⟨k, kind⟩ := Option.ne_none_iff_exists'.1 valid
    rw [exec_get _ _ _ _ _ takes]
    simp only [getSetting, kind, settingValue_served, served_closeItem]
    rfl
  · rw [exec_get _ _ _ _ _ takes]
    simp only [getSetting, invalid, served_close]
    rfl

/-- Settles O45: each clause is one of the ways of SET or GET above. -/
theorem setStoresAndGetReads : Obligations.SetStoresAndGetReads := by
  refine ⟨?rig, ?lane, ?filter, ?live, by decide, ?telemetry, ?get⟩
  case rig =>
    intro p tag id index v s rig c takes refused
    obtain ⟨rigged, invalid, -⟩ := exec_set_rig p tag id index v s rig takes
    refine ⟨rigged, fun free => ⟨fun kept rule => invalid free ?_, fun kept rule => exec_set_plain p tag id index v s rig free kept rule takes,
      fun lane none_ => invalid free ?_, fun filter none_ => invalid free ?_⟩⟩
    · simpa using storeRig_plain s.settings id index v false kept rule
    · have range := settingClass_index_lt id index (by simp [rig]) lane
      refine Option.eq_none_iff_forall_ne_some.2 fun st' stored => none_ ⟨index, range⟩ st' ?_
      exact (storeRig_lane_iff s.settings st' id ⟨index, range⟩ v lane).1 stored
    · exact Option.eq_none_iff_forall_ne_some.2 fun st' stored => none_ st' ((storeRig_filter_iff _ _ _ _ _ filter).1 stored)
  case lane =>
    intro p tag id l v s st' free set c takes r lanes' after ends
    refine ⟨exec_set_lane_idle p tag id l v s st' free set takes, fun w cell good map => ?_,
      fun q held checking service work others => ?_, fun q => settingValue_laneSet s q st' id l v set⟩
    · intro old formed fresh
      have run := exec_set_lane_good p tag id l v s st' free set takes w cell good map
      have cells : ∀ x, cellFresh st' (laneRestarted s st' l s.tension.winches).tension w x = true ↔ fresh x :=
        cellFresh_iff st' _ w
      have form : ∀ formedRec, formWinch st'.disagreeTol (cellFresh st' (laneRestarted s st' l s.tension.winches).tension w .a)
          (cellFresh st' (laneRestarted s st' l s.tension.winches).tension w .b) old = formedRec →
          ends (after (s.tension.winches.set w formedRec)) := by
        rintro _ rfl
        exact run
      have lost : ∀ x, ¬fresh x → cellFresh st' (laneRestarted s st' l s.tension.winches).tension w x = false :=
        fun x no => Bool.eq_false_iff.2 (mt (cells x).1 no)
      refine ⟨fun a b near => form _ ?_, fun a b far => form _ ?_, fun a b => form _ ?_, fun a b => form _ ?_,
        fun a b => form _ ?_⟩
      · rw [(cells .a).2 a, (cells .b).2 b]
        exact if_pos near
      · rw [(cells .a).2 a, (cells .b).2 b]
        exact if_neg (not_le.2 far)
      · rw [(cells .a).2 a, lost .b b]
        rfl
      · rw [lost .a a, (cells .b).2 b]
        rfl
      · rw [lost .a a, lost .b b]
        rfl
    · exact exec_set_lane_checking p tag id l v s st' free set takes q held checking service work others
  case filter =>
    intro p tag id index v s st' free rig set c takes unfed_
    refine ⟨?_, fun range q => settingValue_filterSet s q st' id index v set range⟩
    rw [exec_set_filter p tag id index v s st' free rig set takes]
    have same : ∀ w r, (if w ∈ lanes.filterMap (goodWinch { s with settings := st' }) then { r with flag := .none } else r) =
        unfed_ w r := by
      intro w r
      refine if_congr ?_ rfl rfl
      rw [mem_goodWinches, filterSet_laneMap _ _ _ _ _ set]
    simp only [unfed, same]
    rfl
  case live =>
    intro p tag id index v s live c takes w n held ordered
    obtain ⟨rigged, stores, conflicts⟩ := exec_set_live p tag id index v s live takes
    have order := liveOrdered_iff s.settings id index n live
    refine ⟨rigged, fun may h => ⟨_, stores may (order.2 h), fun q => settingValue_storeLive s q id index n live,
      fun id' index' q valid ne => storeLive_other s q id index id' index' n (by simp [live]) valid ne⟩,
      fun may h => conflicts may (Bool.eq_false_iff.2 (mt order.1 h))⟩
  case telemetry =>
    intro p tag v s c takes n u
    have same : clampInterval v.x = n := clampInterval_eq v.x
    have run := exec_set_interval p tag v s takes
    rw [same] at run
    exact run
  case get =>
    intro p tag id index v s get set
    refine ⟨fun takes => (exec_get_cases p tag id index s takes).1, fun takes => (exec_get_cases p tag id index s takes).2,
      fun takes invalid => ?_⟩
    rw [exec_set _ _ _ _ _ _ takes]
    simp only [setSetting, invalid, served_close]
    rfl

end Sys2Proof.Proofs
end

section
namespace Sys2Proof.Proofs
open Sys2Proof.Machine

/-! ## RIG_COMMIT (R14, R17) -/

theorem exec_rigCommit (p : Port) (tag : Byte) (pose : Vec3) (s : State) (takes : s.takes p (.rigCommit p tag pose) = true) :
    exec (.rigCommit p tag pose) s = .next (rigCommit p tag pose (s.served p (.rigCommit p tag pose) [] [])) :=
  congrArg Host.Outcome.next (take_of_takes _ _ _ _ _ takes)

/-- The checks of Table 1-4 read nothing of the ports. -/
theorem commitFault_served (s : State) (p : Port) (c : Instr) (as : List Answer) (ns : List Notice) (um : Vec3) :
    commitFault (s.served p c as ns) um = commitFault s um := by
  cases p <;> rfl

theorem rigCommit_rigged (p : Port) (tag : Byte) (pose : Vec3) (s : State) (h : s.rigged = true) :
    rigCommit p tag pose s = s.close p tag .wrongMode 0 0 := if_pos h

theorem rigCommit_outOfRange (p : Port) (tag : Byte) (pose : Vec3) (s : State) (axis : Nat) (h : s.rigged = false)
    (range : positionFault pose = some axis) : rigCommit p tag pose s = s.close p tag .outOfRange 0 axis := by
  simp [rigCommit, h, range]

theorem rigCommit_checkFails (p : Port) (tag : Byte) (pose : Vec3) (s : State) (check index : Nat) (h : s.rigged = false)
    (range : positionFault pose = none) (fails : commitFault s (Vec.micro pose) = some (check, index)) :
    rigCommit p tag pose s = s.close p tag (if check = 13 then .estop else .conflict) check index := by
  simp [rigCommit, h, range, fails]

theorem rigCommit_accepted (p : Port) (tag : Byte) (pose : Vec3) (s : State) (h : s.rigged = false)
    (range : positionFault pose = none) (passes : commitFault s (Vec.micro pose) = none) :
    rigCommit p tag pose s = ((commitAt (Vec.micro pose) s).close p tag .ok 0 0).modeNotice .commit .offline none := by
  simp [rigCommit, h, range, passes]

/-- R138: the tension cap reads the winches' tensions alone, so clearing the protection counts leaves it. -/
theorem tensionCapOf_cleared (st : Settings) (winches : Quad WinchRec) :
    tensionCapOf st (winches.map (fun w => { w with overload := 0, slack := 0 })) = tensionCapOf st winches := by
  simp [tensionCapOf]

theorem commitAt_served (s : State) (p : Port) (c : Instr) (as : List Answer) (ns : List Notice) (um : Vec3) :
    commitAt um (s.served p c as ns) = (commitAt um s).served p c as ns := by
  simp [commitAt]

/-- Settles O46: the four ways of `rigCommit`, each at the state in which the request is taken. -/
theorem rigCommitRigsAtPose : Obligations.RigCommitRigsAtPose := by
  intro p tag pose s c takes um l drum k
  have run := exec_rigCommit p tag pose s takes
  refine ⟨fun free range passes => ?_, fun rigged => ?_, fun free axis range => ?_,
    fun free range check index fails => ?_⟩
  · rw [run, rigCommit_accepted _ _ _ _ (by simpa using free) range (by rw [commitFault_served]; exact passes),
      commitAt_served, served_close, modeNotice_told, served_told, served_carrier]
    simp only [commitAt, Tension.commit, tensionCapOf_cleared]
    rfl
  · rw [run, rigCommit_rigged _ _ _ _ (by simpa using rigged), served_close]
    rfl
  · rw [run, rigCommit_outOfRange _ _ _ _ axis (by simpa using free) range, served_close]
    rfl
  · rw [run, rigCommit_checkFails _ _ _ _ check index (by simpa using free) range
      (by rw [commitFault_served]; exact fails), served_close]
    rfl

end Sys2Proof.Proofs
end

section
namespace Sys2Proof.Proofs
open Sys2Proof.Machine

/-! ## The checks of RIG_COMMIT (R15, R16, Table 1-4) -/

/-- A check is as the table has it: it finds nothing exactly when `pass` holds, and what it finds meets `names`. -/
def Judges (found : Option Nat) (pass : Prop) (names : Nat → Prop) : Prop :=
  (found = none ↔ pass) ∧ ∀ index, found = some index → names index

theorem Judges.imp {found : Option Nat} {pass pass' : Prop} {names names' : Nat → Prop} (h : Judges found pass names)
    (hp : pass ↔ pass') (hn : ∀ index, names index → names' index) : Judges found pass' names' :=
  ⟨h.1.trans hp, fun index e => hn index (h.2 index e)⟩

/-- The checks from number `start` on are as the table has them. -/
def JudgedFrom (passes : Nat → Prop) (names : Nat → Nat → Prop) : (start : Nat) → List (Option Nat) → Prop
  | _, [] => True
  | start, found :: rest => Judges found (passes start) (names start) ∧ JudgedFrom passes names (start + 1) rest

/-- R14: the first check that finds something is reported by its number, and those before it pass. -/
theorem first_fault (passes : Nat → Prop) (names : Nat → Nat → Prop) (start : Nat) (checks : List (Option Nat))
    (h : JudgedFrom passes names start checks) :
    let fault := (checks.zipIdx start).findSome? (fun x => x.1.map (fun index => (x.2, index)))
    (fault = none ↔ ∀ k, start ≤ k → k < start + checks.length → passes k) ∧
    ∀ check index, fault = some (check, index) → start ≤ check ∧ check < start + checks.length ∧ ¬passes check ∧
      (∀ k, start ≤ k → k < check → passes k) ∧ names check index := by
  induction checks generalizing start with
  | nil => simp; omega
  | cons found rest ih =>
    obtain ⟨⟨judged, named⟩, below⟩ := h
    obtain ⟨all, first⟩ := ih (start + 1) below
    have split : ∀ k, start ≤ k → k = start ∨ start + 1 ≤ k := by omega
    cases found with
    | none =>
      have pass : passes start := judged.1 rfl
      simp only [List.zipIdx_cons, List.findSome?_cons, Option.map_none, List.length_cons]
      refine ⟨all.trans ⟨fun h k low high => ?_, fun h k low high => h k (by omega) (by omega)⟩, fun check index e => ?_⟩
      · obtain rfl | low := split k low
        · exact pass
        · exact h k low (by omega)
      · obtain ⟨low, high, fails, before, name⟩ := first check index e
        refine ⟨by omega, by omega, fails, fun k hk hc => ?_, name⟩
        obtain rfl | hk := split k hk
        · exact pass
        · exact before k hk hc
    | some n =>
      have fails : ¬passes start := fun pass => by simpa using judged.2 pass
      simp only [List.zipIdx_cons, List.findSome?_cons, Option.map_some, List.length_cons]
      refine ⟨iff_of_false (by simp) fun h => fails (h start le_rfl (by omega)), fun check index e => ?_⟩
      obtain ⟨rfl, rfl⟩ : start = check ∧ n = index := by simpa using e
      exact ⟨le_rfl, by omega, fails, by omega, named n rfl⟩

/-- A check that looks for the first item that fails, in ascending order of a key. -/
theorem judges_find {α : Type} (key : α → Nat) (items : List α) (fails : α → Bool) (index : α → Nat) :
    Judges ((items.find? fails).map index) (∀ x ∈ items, fails x = false)
      (fun i => items.Pairwise (fun a b => key a < key b) →
        ∃ x ∈ items, fails x = true ∧ (∀ y ∈ items, key y < key x → fails y = false) ∧ i = index x) := by
  refine ⟨by simp, fun i e sorted => ?_⟩
  obtain ⟨x, found, rfl⟩ := Option.map_eq_some_iff.1 e
  obtain ⟨mem, fail, least⟩ := (find?_eq_some_iff_least key fails items sorted x).1 found
  exact ⟨x, mem, fail, least, rfl⟩

theorem judges_winch (fails : Winch → Bool) (fine : Winch → Prop) (h : ∀ w, fails w = false ↔ fine w) :
    Judges (failingWinch fails) (∀ w, fine w) (fun i => ∃ w, ¬fine w ∧ (∀ v, v < w → fine v) ∧ i = w.val) := by
  refine (judges_find Fin.val winches fails Fin.val).imp (by simp [mem_winches, h]) fun i first => ?_
  obtain ⟨w, -, fail, least, rfl⟩ := first (by decide)
  exact ⟨w, by simp [← h, fail], fun v less => (h v).1 (least v (mem_winches v) less), rfl⟩

theorem judges_lane (base : Nat) (fails : Lane → Bool) (fine : Lane → Prop) (h : ∀ l, fails l = false ↔ fine l) :
    Judges ((lanes.find? fails).map (fun l => base + l.val)) (∀ l, fine l)
      (fun i => ∃ l, ¬fine l ∧ (∀ k, k < l → fine k) ∧ i = base + l.val) := by
  refine (judges_find Fin.val lanes fails _).imp (by simp [mem_lanes, h]) fun i first => ?_
  obtain ⟨l, -, fail, least, rfl⟩ := first (by decide)
  exact ⟨l, by simp [← h, fail], fun k less => (h k).1 (least k (mem_lanes k) less), rfl⟩

theorem judges_zone (zones : List Zone) (fails : Zone → Bool) (fine : Zone → Prop) (h : ∀ z, fails z = false ↔ fine z) :
    Judges ((zones.find? fails).map Zone.number) (∀ z ∈ zones, fine z)
      (fun i => zones.Pairwise (fun a b => a.number < b.number) →
        ∃ z ∈ zones, ¬fine z ∧ (∀ y ∈ zones, y.number < z.number → fine y) ∧ i = z.number) := by
  refine (judges_find Zone.number zones fails Zone.number).imp (by simp [h]) fun i first sorted => ?_
  obtain ⟨z, mem, fail, least, rfl⟩ := first sorted
  exact ⟨z, mem, by simp [← h, fail], fun y hy less => (h y).1 (least y hy less), rfl⟩

/-- R15: the pairs of anchors are those of a lower and a higher winch, in the order of `4 a + b`. -/
theorem mem_anchorPairs (a b : Winch) : (a, b) ∈ anchorPairs ↔ a < b := by
  revert a b; decide

theorem pair_order (a b c d : Winch) : 4 * c.val + d.val < 4 * a.val + b.val ↔ c < a ∨ (c = a ∧ d < b) := by
  revert a b c d; decide

theorem judges_pair (fails : Winch × Winch → Bool) (fine : Winch → Winch → Prop)
    (h : ∀ a b, fails (a, b) = false ↔ fine a b) :
    Judges ((anchorPairs.find? fails).map (fun x => 4 * x.1.val + x.2.val)) (∀ a b, a < b → fine a b)
      (fun i => ∃ a b : Winch, a < b ∧ ¬fine a b ∧ (∀ c d : Winch, c < d → c < a ∨ (c = a ∧ d < b) → fine c d) ∧
        i = 4 * a.val + b.val) := by
  refine (judges_find (fun x => 4 * x.1.val + x.2.val) anchorPairs fails _).imp
    (by simp [Prod.forall, mem_anchorPairs, h]) fun i first => ?_
  obtain ⟨⟨a, b⟩, mem, fail, least, rfl⟩ := first (by decide)
  exact ⟨a, b, (mem_anchorPairs a b).1 mem, by simp [← h, fail], fun c d less before =>
    (h c d).1 (least (c, d) ((mem_anchorPairs c d).2 less) ((pair_order a b c d).2 before)), rfl⟩

theorem judges_plain (test : Bool) (pass : Prop) (h : test = true ↔ pass) :
    Judges (plainCheck test) pass (fun i => i = 0) := by
  cases test <;> simp [Judges, plainCheck, ← h]

/-- R15: the three passes of LANES, each made where the one before it finds nothing. -/
theorem judges_lanes (s : State) (mapped : Winch → Prop) (own good : Lane → Prop)
    (hm : ∀ w, winchUnmapped s.settings w = false ↔ mapped w) (ho : ∀ l, laneShares s.settings l = false ↔ own l)
    (hg : ∀ l, laneNotGood s l = false ↔ good l) :
    Judges (lanesFault s) ((∀ w, mapped w) ∧ (∀ l, own l) ∧ ∀ l, good l)
      (fun i => (∃ w, ¬mapped w ∧ (∀ v, v < w → mapped v) ∧ i = w.val) ∨
        ((∀ w, mapped w) ∧ ∃ l, ¬own l ∧ (∀ k, k < l → own k) ∧ i = 0x10 + l.val) ∨
        ((∀ w, mapped w) ∧ (∀ l, own l) ∧ ∃ l, ¬good l ∧ (∀ k, k < l → good k) ∧ i = 0x20 + l.val)) := by
  have first := judges_winch _ mapped hm
  have second := judges_lane 0x10 _ own ho
  have third := judges_lane 0x20 _ good hg
  unfold lanesFault
  cases e : failingWinch (winchUnmapped s.settings) with
  | some w =>
    rw [e] at first
    exact ⟨iff_of_false (by simp) fun h => by simpa using first.1.2 h.1, fun i hi => .inl (first.2 i hi)⟩
  | none =>
    have all := first.1.1 e
    cases e' : lanes.find? (laneShares s.settings) with
    | some l =>
      rw [e'] at second
      exact ⟨iff_of_false (by simp) fun h => by simpa using second.1.2 h.2.1, fun i hi => .inr (.inl ⟨all, second.2 i hi⟩)⟩
    | none =>
      have alone := second.1.1 (by rw [e']; rfl)
      exact third.imp (by simp [all, alone]) fun i h => .inr (.inr ⟨all, alone, h⟩)

/-! What each test of Table 1-4 says. -/

theorem anchorsClose_iff (st : Settings) (a b : Winch) : anchorsClose st (a, b) = false ↔
    1000000 ≤ ((st.anchor.get b).x - (st.anchor.get a).x) ^ 2 + ((st.anchor.get b).y - (st.anchor.get a).y) ^ 2
      + ((st.anchor.get b).z - (st.anchor.get a).z) ^ 2 := by
  rw [anchorsClose, decide_eq_false_iff_not, not_lt]
  simp only [Vec.sq, Vec.sub, pow_two]

theorem lengthsFail_iff (st : Settings) (w : Winch) :
    lengthsFail st w = false ↔ st.lenMin.get w < st.lenMax.get w ∧ st.drumScale.get w ≠ 0 := by
  simp [lengthsFail]

theorem winchUnmapped_iff (st : Settings) (w : Winch) :
    winchUnmapped st w = false ↔ ∃ l c, st.laneMap.get l = some ⟨w, c⟩ := by
  have names : ∀ l, ((st.laneMap.get l).any (fun m => m.winch == w) = true ↔ ∃ c, st.laneMap.get l = some ⟨w, c⟩) := by
    intro l
    rcases st.laneMap.get l with _ | ⟨v, c⟩ <;> simp
  simp only [winchUnmapped, Bool.not_eq_false', lanes_any_iff, names]

theorem laneShares_iff (st : Settings) (l : Lane) : laneShares st l = false ↔
    ¬(st.laneMap.get l ≠ none ∧ ∃ k, k < l ∧ st.laneMap.get k = st.laneMap.get l) := by
  rw [← Bool.not_eq_true, laneShares, Bool.and_eq_true, lanes_any_iff]
  simp [Option.isSome_iff_ne_none]

theorem laneNotGood_iff (s : State) (l : Lane) : laneNotGood s l = false ↔
    (s.settings.laneMap.get l ≠ none → (s.tension.lanes.get l).state = .good) := by
  simp only [laneNotGood, ← Bool.not_eq_true, Bool.and_eq_true, Option.isSome_iff_ne_none, bne_iff_ne]
  tauto

theorem filterPasses_iff (st : Settings) : filterPasses st = true ↔
    st.filterMode = .builtIn ∨ (2048 ≤ st.filterCoeff.sum ∧ st.filterCoeff.sum ≤ 8192) := by
  simp [filterPasses]

theorem tensionOrdered_iff (st : Settings) (w : Winch) : (!tensionOrdered st w) = false ↔
    st.tensionSlack.get w < st.tensionWarn.get w ∧ st.tensionWarn.get w < st.tensionMax.get w := by
  simp [tensionOrdered]

theorem poseOutOfRange_iff (st : Settings) (um : Vec3) (w : Winch) : poseOutOfRange st um w = false ↔
    let d := (um.x - 1000 * (st.anchor.get w).x) ^ 2 + (um.y - 1000 * (st.anchor.get w).y) ^ 2
      + (um.z - 1000 * (st.anchor.get w).z) ^ 2
    (1000 * st.lenMin.get w) ^ 2 ≤ d ∧ d ≤ (1000 * st.lenMax.get w) ^ 2 := by
  simp [poseOutOfRange, squaredDistance_eq, ← pow_two]

theorem poseZone_test_iff (um : Vec3) (z : Zone) : (z.keepsOut && z.expanded.holds um) = false ↔
    (z.kind = .keepOut → z.state = .active → z.expanded.holds um = false) := by
  simp [Zone.keepsOut]

theorem lineRangeFault_eq_allPassiff (st : Settings) (b : Box) : lineRangeFault st b = none ↔
    ∀ w, lineRangeAt (st.anchor.get w) (st.lenMin.get w) (st.lenMax.get w) b = true := by
  simp [lineRangeFault, mem_winches]

theorem keepInOutOfRange_test_iff (st : Settings) (z : Zone) :
    (z.kind == .keepIn && z.state == .active && (lineRangeFault st z.shrunk).isSome) = false ↔
      (z.kind = .keepIn → z.state = .active →
        ∀ w, lineRangeAt (st.anchor.get w) (st.lenMin.get w) (st.lenMax.get w) z.shrunk = true) := by
  rw [← lineRangeFault_eq_allPassiff]
  simp

theorem driveFails_iff (s : State) (w : Winch) : driveFails s w = false ↔
    (∃ a, (s.bus.drives.get w).statusAge = some a ∧ a < 10) ∧
      (s.bus.drives.get w).state ≠ some .running ∧ (s.bus.drives.get w).state ≠ some .fault := by
  cases age : (s.bus.drives.get w).statusAge <;> simp [driveFails, age, and_assoc]

/-- Settles O47: each of the thirteen checks is as the table has it, and `first_fault` puts them in order. -/
theorem commitChecksAreTheTable : Obligations.CommitChecksAreTheTable := by
  intro s um st distance apart winchPasses mapped shares good zonePasses passes firstWinch firstLane names
  have winch : ∀ k fails, (∀ w, fails w = false ↔ winchPasses k w) →
      (∀ z, zonePasses k z) → Judges (failingWinch fails) ((∀ w, winchPasses k w) ∧ ∀ z ∈ s.zones, zonePasses k z)
        (firstWinch (winchPasses k)) := fun k fails test free =>
    (judges_winch fails _ test).imp (and_iff_left fun z _ => free z).symm fun _ => id
  have zone : ∀ k fails, (∀ z, fails z = false ↔ zonePasses k z) → (∀ w, winchPasses k w) →
      Judges ((s.zones.find? fails).map Zone.number) ((∀ w, winchPasses k w) ∧ ∀ z ∈ s.zones, zonePasses k z)
        (fun i => s.zones.Pairwise (fun a b => a.number < b.number) →
          ∃ z ∈ s.zones, ¬zonePasses k z ∧ (∀ y ∈ s.zones, y.number < z.number → zonePasses k y) ∧ i = z.number) :=
    fun k fails test free => (judges_zone s.zones fails _ test).imp (and_iff_right free).symm fun _ => id
  have table : JudgedFrom passes names 1 (commitChecks s um) := by
    refine ⟨judges_pair _ apart (anchorsClose_iff st), judges_plain _ _ decide_eq_true_iff,
      winch 3 _ (fun w => by simp [winchPasses, st]) fun _ => trivial,
      winch 4 _ (lengthsFail_iff st) fun _ => trivial,
      judges_lanes s mapped (fun l => ¬shares l) good (winchUnmapped_iff st) (laneShares_iff st) (laneNotGood_iff s),
      judges_plain _ _ (filterPasses_iff st), judges_plain _ _ beq_iff_eq,
      winch 8 _ (tensionOrdered_iff st) fun _ => trivial,
      winch 9 _ (poseOutOfRange_iff st um) fun _ => trivial,
      zone 10 _ (poseZone_test_iff um) fun _ => trivial,
      zone 11 _ (keepInOutOfRange_test_iff st) fun _ => trivial,
      winch 12 _ (driveFails_iff s) fun _ => trivial,
      judges_plain _ (s.estop = false) (by simp), trivial⟩
  have beyond : ∀ k, ¬(1 ≤ k ∧ k < 14) → passes k := by
    intro k outside
    match k with
    | 0 => exact ⟨fun _ => trivial, fun _ _ => trivial⟩
    | n + 14 => exact ⟨fun _ => trivial, fun _ _ => trivial⟩
  obtain ⟨allPass, firstFails⟩ := first_fault passes names 1 (commitChecks s um) table
  refine ⟨allPass.trans ⟨fun h k => ?_, fun h k _ _ => h k⟩, fun check index e => ?_⟩
  · by_cases range : 1 ≤ k ∧ k < 14
    · exact h k range.1 range.2
    · exact beyond k range
  · obtain ⟨low, high, fails, before, name⟩ := firstFails check index e
    refine ⟨low, Nat.le_of_lt_succ high, fails, fun k less => ?_, name⟩
    by_cases one : 1 ≤ k
    · exact before k one less
    · exact beyond k (by omega)

end Sys2Proof.Proofs
end

section
namespace Sys2Proof.Proofs
open Sys2Proof.Machine

/-! ## UNRIG (R18, R19) -/

theorem served_carrierSettled (s : State) (p : Port) (c : Instr) (as : List Answer) (ns : List Notice)
    (h : s.carrierSettled) : (s.served p c as ns).carrierSettled := by
  simpa [State.carrierSettled] using h

theorem served_marksSettled (s : State) (p : Port) (c : Instr) (as : List Answer) (ns : List Notice) :
    (s.served p c as ns).marksSettled = s.marksSettled := by
  simp [State.marksSettled]

/-- With nothing standing at carrier control, UNRIG is judged in the state in which its owner takes it. -/
theorem exec_unrig (p : Port) (tag : Byte) (s : State) (settled : s.carrierSettled)
    (takes : s.takes p (.unrig p tag) = true) :
    exec (.unrig p tag) s = .next (unrig p tag (s.served p (.unrig p tag) [] [])) := by
  show Host.Outcome.next _ = _
  rw [take_of_takes _ _ _ _ _ takes, carrierReady_settled _ (served_carrierSettled _ _ _ _ _ settled)]

theorem unrig_refused (p : Port) (tag : Byte) (s : State) (status : Status) (h : unrigFault p s.carrier = some status) :
    unrig p tag s = s.close p tag status 0 0 := by
  simp only [unrig, h]

theorem unrig_accepted (p : Port) (tag : Byte) (s : State) (h : unrigFault p s.carrier = none)
    (settled : s.marksSettled = true) : unrig p tag s = (unrigNow s).close p tag .ok 0 0 := by
  simp only [unrig, h, queueReady_none s settled]

/-- R18: the modes in which UNRIG from the safety port is accepted. -/
theorem unrigFault_eq_none_iff (c : Carrier) : unrigFault .safety c = none ↔
    c.mode = .parked ∨ c.mode = .halted .stopped ∨ (c.mode = .hold ∧ c.lastAtRest = true) := by
  unfold unrigFault
  rcases c.mode with _ | _ | _ | _ | _ | (_ | _) <;> simp

theorem unrigFault_notAtRest (c : Carrier)
    (h : c.mode = .steer ∨ c.mode = .travel ∨ c.mode = .halted .stopping ∨ (c.mode = .hold ∧ c.lastAtRest = false)) :
    unrigFault .safety c = some .notAtRest := by
  obtain h | h | h | ⟨h, rest⟩ := h
  · simp [unrigFault, h]
  · simp [unrigFault, h]
  · simp [unrigFault, h]
  · simp [unrigFault, h, rest]

/-- Outside STEER the change to OFFLINE frees the stick and touches no steer vector. -/
theorem carrier_unrig_eq (c : Carrier) (h : c.mode ≠ .steer) : c.unrig = { c with
    mode := .offline, causes := [], first := none, poseLost := false, stickOwned := false, windMirror := false } := by
  simp [Carrier.unrig, Carrier.toMode, h]

/-- The news of UNRIG are those of the records that wait or lapse. -/
theorem unrigNews_filterMap (zones : List Zone) : zones.filterMap unrigNews =
    (zones.filter (fun z => z.waits || z.lapsesAtUnrig)).map (fun z =>
      if z.waits then (.activated, { z with state := .active }) else (.lapsed, z)) := by
  induction zones with
  | nil => rfl
  | cons z rest ih =>
    rw [List.filterMap_cons, List.filter_cons, ih]
    cases w : z.waits <;> cases l : z.lapsesAtUnrig <;> simp [unrigNews, w, l]

/-- Where no record waits or lapses, UNRIG leaves the zone table as it is. -/
theorem unrigZones_quiet (zones : List Zone) (h : zones.filter (fun z => z.waits || z.lapsesAtUnrig) = []) :
    unrigZones zones = ⟨zones, [], []⟩ := by
  have quiet : ∀ z ∈ zones, z.waits = false ∧ z.lapsesAtUnrig = false := by
    simpa [List.filter_eq_nil_iff] using h
  have kept : zones.filter (fun z => !z.lapsesAtUnrig) = zones :=
    List.filter_eq_self.2 fun z hz => by simp [quiet z hz]
  have same : zones.map (fun z => if z.waits then { z with state := .active } else z) = zones := by
    rw [List.map_congr_left (g := id) fun z hz => by simp [quiet z hz], List.map_id]
  simp only [unrigZones, unrigNews_filterMap, h, kept, same, List.map_nil]

/-- The blocks other than the zone and mark tables after UNRIG. -/
def unrigged (s : State) : State := { s with
  queue := { s.queue with entries := [], travelFlag := false }
  carrier := { s.carrier with
    mode := .offline, causes := [], first := none, poseLost := false, stickOwned := false, windMirror := false }
  path := none, refBox := none
  drums := s.drums.map (fun d => { d with countRef := none, lengthRef := none, exceed := 0 })
  wind := { s.wind with hold := false }
  bus := { s.bus with slots := .all none, stopSlot := some (s.carrier.first.map Report.cause) } }

/-- The notices of UNRIG before those of the zone table. -/
def unrigTold (s : State) : List Notice :=
  [Notice.queue .unrig s.queue.entries.length, modeNews .unrig (unrigged s).carrier s.carrier.mode]
    ++ (if s.wind.hold then [.wind .unrig false s.wind.speed s.wind.cap s.settings.windFull s.settings.windStop] else [])

theorem unrigNow_eq (s : State) (h : s.carrier.mode ≠ .steer) : unrigNow s =
    settleMarks (((unrigged s).told (unrigTold s)).applyZoneWork (unrigZones s.zones)) := by
  have blocks : unrigBlocks s = unrigged s := by
    simp only [unrigBlocks, carrier_unrig_eq _ h]; rfl
  simp only [unrigNow, blocks, notify_told, modeNotice_told, State.windNotice, told_told, told_carrier]
  cases hold : s.wind.hold <;> simp [unrigTold, hold] <;> rfl

/-- R52: a single report of changes that stands is taken, and every mark is judged again. -/
theorem settleMarks_one (s : State) (ns : List Nat) (h : s.hands.changes = [ns]) :
    settleMarks s = reevaluateMarks { s with hands := { s.hands with changes := [] } } := by
  simp [settleMarks, takeChangeReport, h]

theorem reevaluateMarks_eq (s : State) : reevaluateMarks s = State.told { s with
      marks := s.marks.map (remark s.zones)
      hands := { s.hands with markReports := s.hands.markReports ++
        (if s.marks.filterMap (remarkChange s.zones) = [] then []
          else [.changed (s.marks.filterMap (remarkChange s.zones))]) } }
    (s.marks.filterMap (remarkNotice s.zones)) := by
  by_cases h : s.marks.filterMap (remarkChange s.zones) = []
  · simp [reevaluateMarks, h]
  · simp [reevaluateMarks, h]

/-- UNRIG where no record waits or lapses. -/
theorem unrigNow_quiet (s : State) (mode : s.carrier.mode ≠ .steer) (settled : s.hands.changes = [])
    (quiet : s.zones.filter (fun z => z.waits || z.lapsesAtUnrig) = []) :
    unrigNow s = (unrigged s).told (unrigTold s) := by
  rw [unrigNow_eq s mode, unrigZones_quiet s.zones quiet]
  simp only [State.applyZoneWork, List.map_nil, notifyAll_told, handChanges_nil]
  exact settleMarks_none _ settled

/-- UNRIG where some record waits or lapses: the zone table is as R19 leaves it, every mark is judged against it, and the
news of the zones come before those of the marks. -/
theorem unrigNow_news (s : State) (mode : s.carrier.mode ≠ .steer) (settled : s.hands.changes = [])
    (stirred : s.zones.filter (fun z => z.waits || z.lapsesAtUnrig) ≠ []) :
    let zones := (unrigZones s.zones).zones
    let changed := s.marks.filterMap (remarkChange zones)
    unrigNow s = State.told { unrigged s with
        zones := zones
        marks := s.marks.map (remark zones)
        hands := { s.hands with
          markReports := s.hands.markReports ++ (if changed = [] then [] else [.changed changed]) } }
      (unrigTold s ++ (unrigZones s.zones).news.map (fun n => .zone n.1 n.2) ++ s.marks.filterMap (remarkNotice zones)) := by
  obtain ⟨n, rest, changed⟩ : ∃ n rest, (unrigZones s.zones).changed = n :: rest := by
    refine List.exists_cons_of_ne_nil ?_
    simpa [unrigZones, unrigNews_filterMap] using stirred
  intro zones
  rw [unrigNow_eq s mode]
  simp only [State.applyZoneWork, changed, notifyAll_told, handChanges_cons, told_mk, told_told, told_hands]
  rw [settleMarks_one _ (n :: rest) (by simp [unrigged, settled]), reevaluateMarks_eq]
  simp [unrigged, settled, zones]

theorem unrigged_served (s : State) (p : Port) (c : Instr) (as : List Answer) (ns : List Notice) :
    unrigged (s.served p c as ns) = (unrigged s).served p c as ns := by
  simp [unrigged]

theorem unrigTold_served (s : State) (p : Port) (c : Instr) (as : List Answer) (ns : List Notice) :
    unrigTold (s.served p c as ns) = unrigTold s := by
  simp [unrigTold, unrigged]

/-- Settles O48: the refusals and the acceptance by `unrigFault`, and the accepted UNRIG with its zone work empty or
not. -/
theorem unrigReturnsOffline : Obligations.UnrigReturnsOffline := by
  intro tag s settled m c k news zones bare told
  have run := exec_unrig (s := s) (settled := settled)
  have refused : ∀ status, s.takes .safety c = true → unrigFault .safety s.carrier = some status →
      exec c s = .next (s.served .safety c [closing tag status 0 0] []) := by
    intro status takes h
    rw [run .safety tag takes, unrig_refused _ _ _ status (by simpa using h)]
    simp [c]
  refine ⟨fun takes marks mode => ?_, fun takes => ?_, fun takes mode => ?_, fun takes mode => ?_⟩
  · have flying : s.carrier.mode ≠ .steer := by
      intro steer
      simp [m, steer] at mode
    have changes : s.hands.changes = [] := by
      simp only [State.marksSettled, Bool.and_eq_true, List.isEmpty_iff] at marks
      exact marks.1
    have accepted : exec c s = .next ((unrigNow (s.served .safety c [] [])).close .safety tag .ok 0 0) := by
      rw [run .safety tag takes, unrig_accepted _ _ _ (by simpa using (unrigFault_eq_none_iff _).2 mode)
        (by rwa [served_marksSettled])]
    have empty : news = [] ↔ s.zones.filter (fun z => z.waits || z.lapsesAtUnrig) = [] := List.map_eq_nil_iff
    constructor
    · intro quiet
      rw [accepted, unrigNow_quiet _ (by simpa using flying) (by simpa using changes) (by simpa using empty.1 quiet),
        unrigged_served, unrigTold_served, served_told, served_close]
      rfl
    · intro stirred
      rw [accepted, unrigNow_news _ (by simpa using flying) (by simpa using changes)
        (by simpa using mt empty.2 stirred), unrigTold_served]
      have zoneNews : (unrigZones s.zones).news.map (fun n => Notice.zone n.1 n.2) = news := by
        simp only [unrigZones, unrigNews_filterMap, List.map_map, news]
        exact List.map_congr_left fun z _ => by dsimp only [Function.comp]; split <;> rfl
      simp only [served_zones, served_marks, served_hands, zoneNews, unrigged_served, served_mk, served_told, served_close]
      rfl
  · rw [run .rig tag takes, unrig_refused _ _ _ .notPermitted rfl, served_close]
    rfl
  · exact refused .wrongMode takes (by simp [unrigFault, show s.carrier.mode = .offline from mode])
  · exact refused .notAtRest takes (unrigFault_notAtRest _ mode)

end Sys2Proof.Proofs
end

section
namespace Sys2Proof.Proofs
open Sys2Proof.Machine

/-! ## The mark test (R51) -/

theorem keepsOut_iff (z : Zone) : z.keepsOut = true ↔ z.kind = .keepOut ∧ z.state = .active := by
  simp [Zone.keepsOut]

theorem keepsIn_iff (z : Zone) : z.keepsIn = true ↔ z.kind = .keepIn ∧ (z.state = .active ∨ z.state = .overdue) := by
  simp [Zone.keepsIn]

theorem markTest_of_hit (zones : List Zone) (point : Vec3) (z : Zone)
    (h : zones.find? (fun z => z.keepsOut && z.expanded.holds (Vec.micro point)) = some z) :
    markTest zones point = (.blocked, z.number) := by
  simp only [markTest, h]

theorem markTest_of_no_hit (zones : List Zone) (point : Vec3)
    (h : zones.find? (fun z => z.keepsOut && z.expanded.holds (Vec.micro point)) = none) :
    markTest zones point =
      if zones.any (fun z => z.keepsIn && z.shrunk.holds (Vec.micro point)) then (.clear, 0) else (.blocked, 0) := by
  simp only [markTest, h]

/-- Settles O42: the search over the table in ascending number finds the lowest ACTIVE keep-out that holds the point. -/
theorem markTestFindsBlocker : Obligations.MarkTestFindsBlocker := by
  intro zones point sorted um hit kept
  have out : ∀ z : Zone, (z.keepsOut && z.expanded.holds um) = true ↔
      z.kind = .keepOut ∧ z.state = .active ∧ z.expanded.holds um = true := fun z => by
    rw [Bool.and_eq_true, keepsOut_iff, and_assoc]
  have kept_iff : zones.any (fun z => z.keepsIn && z.shrunk.holds um) = true ↔ kept := by
    simp only [List.any_eq_true, Bool.and_eq_true, keepsIn_iff, kept, and_assoc]
  have missed : (∀ z, ¬hit z) → zones.find? (fun z => z.keepsOut && z.expanded.holds um) = none := fun none_ =>
    List.find?_eq_none.2 fun z mem test => none_ z ⟨mem, (out z).1 test⟩
  refine ⟨fun z ⟨mem, test⟩ lowest => markTest_of_hit zones point z ?_, fun none_ k => ?_, fun none_ k => ?_⟩
  · refine (find?_eq_some_iff_least Zone.number _ zones sorted z).2 ⟨mem, (out z).2 test, fun y hy less => ?_⟩
    exact Bool.eq_false_iff.2 fun t => absurd (lowest y ⟨hy, (out y).1 t⟩) (by omega)
  · rw [markTest_of_no_hit zones point (missed none_)]
    exact if_pos (kept_iff.2 k)
  · rw [markTest_of_no_hit zones point (missed none_)]
    exact if_neg (mt kept_iff.1 k)

end Sys2Proof.Proofs
end

section
namespace Sys2Proof.Proofs
open Sys2Proof.Machine

/-! ## The report of changes in force (R52) -/

/-- Choosing nothing for the items that stay the same is leaving them out. -/
theorem filterMap_ite_eq_map_filter {α β : Type} (same : α → Prop) [DecidablePred same] (g : α → β) (l : List α) :
    l.filterMap (fun a => if same a then none else some (g a)) = (l.filter (fun a => decide (¬same a))).map g := by
  rw [← List.filterMap_eq_map, List.filterMap_filter]
  exact congrArg (List.filterMap · l) (funext fun a => by by_cases h : same a <;> simp [h])

/-- The marks whose state the mark test, made again, changes. -/
def restated (zones : List Zone) (marks : List Mark) : List Mark :=
  marks.filter (fun m => decide ((remark zones m).state ≠ m.state))

theorem filterMap_remarkChange (zones : List Zone) (marks : List Mark) :
    marks.filterMap (remarkChange zones) = (restated zones marks).map (fun m => (m.number, (remark zones m).state)) :=
  filterMap_ite_eq_map_filter (fun m => (remark zones m).state = m.state) _ marks

theorem filterMap_remarkNotice (zones : List Zone) (marks : List Mark) :
    marks.filterMap (remarkNotice zones) = (restated zones marks).map (fun m =>
      .mark (if (remark zones m).state = .blocked then .blocked else .cleared) (some m.state) (remark zones m)) :=
  filterMap_ite_eq_map_filter (fun m => (remark zones m).state = m.state) _ marks

/-- The oldest report of changes is taken, and every mark is judged again. -/
theorem takeChangeReport_cons (s : State) (r : List Nat) (rest : List (List Nat)) (h : s.hands.changes = r :: rest) :
    takeChangeReport s = reevaluateMarks { s with hands := { s.hands with changes := rest } } := by
  simp only [takeChangeReport, h]

/-- Settles O44: the changes and the notices of a re-evaluation are those of the marks that it restates. -/
theorem changesReevaluateEveryMark : Obligations.ChangesReevaluateEveryMark := by
  intro s r rest stands judged moved
  show Host.Outcome.next (takeChangeReport s) = _
  rw [takeChangeReport_cons s r rest stands, reevaluateMarks_eq, filterMap_remarkChange, filterMap_remarkNotice]
  simp only [List.map_eq_nil_iff]
  rfl

end Sys2Proof.Proofs
end

section
namespace Sys2Proof.Proofs
open Sys2Proof.Machine

/-! ## Mark requests: the taking -/

/-- With no report of changes standing, a mark request is judged in the state in which its owner takes it. -/
theorem take_settleMarks (s : State) (p : Port) (tag : Byte) (c : Instr) (owner : State → State)
    (takes : s.takes p c = true) (settled : s.hands.changes = []) :
    s.take p tag c (fun t => owner (settleMarks t)) = owner (s.served p c [] []) := by
  rw [take_of_takes _ _ _ _ _ takes, settleMarks_none _ (by rwa [served_hands])]

section Taken

variable (p : Port) (tag : Byte) (s : State) (settled : s.hands.changes = [])
include settled

theorem exec_markSet (b : MarkSetBody) (takes : s.takes p (.markSet p tag b) = true) :
    exec (.markSet p tag b) s = .next (markSet p tag b (s.served p (.markSet p tag b) [] [])) :=
  congrArg Host.Outcome.next (take_settleMarks _ _ _ _ _ takes settled)

theorem exec_markHere (b : MarkHereBody) (takes : s.takes p (.markHere p tag b) = true) :
    exec (.markHere p tag b) s = .next (markHere p tag b (s.served p (.markHere p tag b) [] [])) :=
  congrArg Host.Outcome.next (take_settleMarks _ _ _ _ _ takes settled)

theorem exec_markRetire (n : Nat) (takes : s.takes p (.markRetire p tag n) = true) :
    exec (.markRetire p tag n) s = .next (markRetire p tag n (s.served p (.markRetire p tag n) [] [])) :=
  congrArg Host.Outcome.next (take_settleMarks _ _ _ _ _ takes settled)

theorem exec_markRead (n : Nat) (takes : s.takes p (.markRead p tag n) = true) :
    exec (.markRead p tag n) s = .next (markRead p tag n (s.served p (.markRead p tag n) [] [])) :=
  congrArg Host.Outcome.next (take_settleMarks _ _ _ _ _ takes settled)

theorem exec_markList (n : Nat) (takes : s.takes p (.markList p tag n) = true) :
    exec (.markList p tag n) s = .next (markList p tag n (s.served p (.markList p tag n) [] [])) :=
  congrArg Host.Outcome.next (take_settleMarks _ _ _ _ _ takes settled)

end Taken

/-! ## MARK_RETIRE, MARK_READ and MARK_LIST (R56, R58, R59) -/

section Cases

variable (p : Port) (tag : Byte) (n : Nat) (s : State)

theorem markRetire_badNumber (h : 63 < n) : markRetire p tag n s = s.close p tag .outOfRange n 5 := if_pos h

theorem markRetire_noRecord (range : n ≤ 63) (h : markAt s.marks n = none) :
    markRetire p tag n s = s.close p tag .noRecord n 0 := by
  rw [markRetire, if_neg (Nat.not_lt.2 range), h]

theorem markRetire_removes (m : Mark) (range : n ≤ 63) (h : markAt s.marks n = some m) :
    markRetire p tag n s = (State.told { s with
        marks := s.marks.filter (fun x => x.number != n)
        hands := { s.hands with markReports := s.hands.markReports ++ [.retired n] } }
      [.mark .retired (some m.state) m]).close p tag .ok n 0 := by
  rw [markRetire, if_neg (Nat.not_lt.2 range), h]
  rfl

theorem markRead_badNumber (h : 63 < n) : markRead p tag n s = s.close p tag .outOfRange n 5 := if_pos h

theorem markRead_noRecord (range : n ≤ 63) (h : markAt s.marks n = none) :
    markRead p tag n s = s.close p tag .noRecord n 0 := by
  rw [markRead, if_neg (Nat.not_lt.2 range), h]

theorem markRead_answers (m : Mark) (range : n ≤ 63) (h : markAt s.marks n = some m) :
    markRead p tag n s = s.closeItem p tag (.mark m) .ok n 0 := by
  rw [markRead, if_neg (Nat.not_lt.2 range), h]

theorem markList_unknown (h : markFilterOf n = none) : markList p tag n s = s.close p tag .outOfRange 0 7 := by
  simp only [markList, h]

theorem markList_serves (f : MarkFilter) (h : markFilterOf n = some f) :
    markList p tag n s = s.setPort p { s.port p with service := some ⟨.marks f none, tag, 0⟩ } := by
  simp only [markList, h, serve_eq]

end Cases

/-- Table 11-8: the codes past the last name no filter. -/
theorem markFilterOf_unknown {n : Nat} (h : 2 < n) : markFilterOf n = none := by
  match n with
  | n + 3 => rfl

theorem markFilterOf_listed {n : Nat} {f : MarkFilter}
    (h : (n = 0 ∧ f = .all) ∨ (n = 1 ∧ f = .state .clear) ∨ (n = 2 ∧ f = .state .blocked)) : markFilterOf n = some f := by
  obtain ⟨rfl, rfl⟩ | ⟨rfl, rfl⟩ | ⟨rfl, rfl⟩ := h <;> rfl

/-- Settles O43: each clause is one branch of its request, at the state in which the request is taken. -/
theorem markRetireReadAndList : Obligations.MarkRetireReadAndList := by
  intro p tag n s settled retire read list
  refine ⟨fun takes => ?_, fun takes => ?_, fun takes => ?_⟩
  · rw [exec_markRetire p tag s settled n takes]
    refine ⟨fun m range found => ?_, fun past => ?_, fun range none_ => ?_⟩
    · rw [markRetire_removes p tag n _ m range (by rwa [served_marks])]
      simp [retire]
    · rw [markRetire_badNumber p tag n _ past, served_close_nil]
    · rw [markRetire_noRecord p tag n _ range (by rwa [served_marks]), served_close_nil]
  · rw [exec_markRead p tag s settled n takes]
    refine ⟨fun m range found => ?_, fun past => ?_, fun range none_ => ?_⟩
    · rw [markRead_answers p tag n _ m range (by rwa [served_marks]), served_closeItem]
      rfl
    · rw [markRead_badNumber p tag n _ past, served_close_nil]
    · rw [markRead_noRecord p tag n _ range (by rwa [served_marks]), served_close_nil]
  · rw [exec_markList p tag s settled n takes]
    refine ⟨fun f listed => ?_, fun past => ?_⟩
    · rw [markList_serves p tag n _ f (markFilterOf_listed listed)]
    · rw [markList_unknown p tag n _ (markFilterOf_unknown past), served_close_nil]

end Sys2Proof.Proofs
end

section
namespace Sys2Proof.Proofs
open Sys2Proof.Machine

/-! ## Rounding and labels (R53, R55) -/

/-- R55: the number of millimetres is nearest, and a half goes away from zero. -/
theorem roundToMm_nearest (um : Int) : |um - 1000 * roundToMm um| ≤ 500 ∧
    (um - 1000 * roundToMm um = 500 → um < 0) ∧ (um - 1000 * roundToMm um = -500 → 0 < um) := by
  unfold roundToMm
  obtain neg | rfl | pos := lt_trichotomy um 0
  · rw [Int.sign_eq_neg_one_of_neg neg, abs_le]
    omega
  · simp
  · rw [Int.sign_eq_one_of_pos pos, abs_le]
    omega

theorem labelFault_long (label : List Byte) (h : 16 < label.length) : labelFault label = some 6 := if_pos h

/-- R53 step 4: the sub-code of a short label is the place of its first byte that is not printable. -/
theorem labelFault_short (label : List Byte) (h : label.length ≤ 16) : labelFault label =
    (label.findIdx? (fun b => decide (b.toNat < 0x20) || decide (b.toNat > 0x7E))).map (fun i => 0x10 + i) :=
  if_neg (Nat.not_lt.2 h)

theorem unprintable_eq_false_iff (b : Byte) : (decide (b.toNat < 0x20) || decide (b.toNat > 0x7E)) = false ↔
    0x20 ≤ b.toNat ∧ b.toNat ≤ 0x7E := by
  simp

theorem labelFault_printable (label : List Byte) (short : label.length ≤ 16)
    (h : ∀ b ∈ label, 0x20 ≤ b.toNat ∧ b.toNat ≤ 0x7E) : labelFault label = none := by
  rw [labelFault_short label short, List.findIdx?_eq_none_iff.2 fun b mem => (unprintable_eq_false_iff b).2 (h b mem)]
  rfl

theorem labelFault_unprintable (before after : List Byte) (b : Byte) (short : (before ++ b :: after).length ≤ 16)
    (bad : b.toNat < 0x20 ∨ 0x7E < b.toNat) (h : ∀ x ∈ before, 0x20 ≤ x.toNat ∧ x.toNat ≤ 0x7E) :
    labelFault (before ++ b :: after) = some (0x10 + before.length) := by
  rw [labelFault_short _ short, List.findIdx?_append,
    List.findIdx?_eq_none_iff.2 fun x mem => (unprintable_eq_false_iff x).2 (h x mem), List.findIdx?_cons,
    if_pos (by simpa using bad)]
  simp

/-! ## The record that is stored (R53, R54) -/

theorem speedCapClamped_iff (speedCap : Int) (cap : Nat) : speedCapClamped speedCap cap = true ↔
    clampSpeedCap speedCap cap ≠ none ∧ clampSpeedCap speedCap cap ≠ some cap := by
  by_cases absent : cap = 0 <;> simp [speedCapClamped, clampSpeedCap, absent]

section Store

variable (s : State) (p : Port) (tag : Byte) (n : Nat) (point : Vec3) (cap : Nat) (label : List Byte) (c : Instr)

/-- The CLOSE of an accepted MARK_SET or MARK_HERE (R53). -/
def storedClose : Answer :=
  closing tag (clampStatus (speedCapClamped s.settings.speedCap cap)) n
    (if speedCapClamped s.settings.speedCap cap then 1 else 0)

theorem storeMark_new (h : markAt s.marks n = none) :
    let m := newMark s.zones n point (clampSpeedCap s.settings.speedCap cap) label
    storeMark (s.served p c [] []) p tag n point cap label =
      State.served { s with marks := insertMark m s.marks } p c [storedClose s tag n cap] [.mark .set none m] := by
  simp [storeMark, h, storedClose]

theorem storeMark_replaces (old : Mark) (h : markAt s.marks n = some old) :
    let m := newMark s.zones n point (clampSpeedCap s.settings.speedCap cap) label
    storeMark (s.served p c [] []) p tag n point cap label =
      State.served { s with
          marks := insertMark m s.marks
          hands := { s.hands with
            markReports := s.hands.markReports ++ .replaced n ::
              (if m.state = old.state then [] else [.changed [(n, m.state)]]) } }
        p c [storedClose s tag n cap] [.mark .replaced (some old.state) m] := by
  intro m
  by_cases same : m.state = old.state
  · simp [storeMark, h, storedClose, m, same]
  · simp [storeMark, h, storedClose, m, same]

end Store

/-! ## The order of the refusals (R53, R55) -/

section Set

variable (p : Port) (tag : Byte) (b : MarkSetBody) (s : State)

theorem markSet_badNumber (h : 63 < b.mark) : markSet p tag b s = s.close p tag .outOfRange b.mark 5 := if_pos h

variable (range : b.mark ≤ 63)
include range

theorem markSet_badPosition (axis : Nat) (h : positionFault b.point = some axis) :
    markSet p tag b s = s.close p tag .outOfRange b.mark axis := by
  rw [markSet, if_neg (Nat.not_lt.2 range), h]

variable (position : positionFault b.point = none)
include position

theorem markSet_badLabel (code : Nat) (h : labelFault b.label = some code) :
    markSet p tag b s = s.close p tag .outOfRange b.mark code := by
  simp only [markSet, if_neg (Nat.not_lt.2 range), position, h]

theorem markSet_stores (h : labelFault b.label = none) :
    markSet p tag b s = storeMark s p tag b.mark b.point b.speedCap b.label := by
  simp only [markSet, if_neg (Nat.not_lt.2 range), position, h]

end Set

section Here

variable (p : Port) (tag : Byte) (b : MarkHereBody) (s : State)

theorem markHere_badNumber (h : 63 < b.mark) : markHere p tag b s = s.close p tag .outOfRange b.mark 5 := if_pos h

variable (range : b.mark ≤ 63)
include range

theorem markHere_offline (h : s.carrier.mode = .offline) : markHere p tag b s = s.close p tag .wrongMode b.mark 0 := by
  rw [markHere, if_neg (Nat.not_lt.2 range)]
  cases s.path with
  | none => rfl
  | some q => exact if_pos h

variable (q : Path) (flies : s.path = some q) (rigged : s.carrier.mode ≠ .offline)
include flies rigged

theorem markHere_poseLost (h : s.carrier.poseLost = true) :
    markHere p tag b s = s.close p tag .poseLost b.mark 0 := by
  simp only [markHere, if_neg (Nat.not_lt.2 range), flies, if_neg rigged, if_pos h]

variable (pose : s.carrier.poseLost = false)
include pose

theorem markHere_badLabel (code : Nat) (h : labelFault b.label = some code) :
    markHere p tag b s = s.close p tag .outOfRange b.mark code := by
  simp only [markHere, if_neg (Nat.not_lt.2 range), flies, if_neg rigged, pose, h, Bool.false_eq_true, if_false]

variable (label : labelFault b.label = none)
include label

theorem markHere_badPosition (axis : Nat) (h : positionFault (Vec.map roundToMm q.pose) = some axis) :
    markHere p tag b s = s.close p tag .outOfRange b.mark axis := by
  simp only [markHere, if_neg (Nat.not_lt.2 range), flies, if_neg rigged, pose, label, h, Bool.false_eq_true, if_false]

theorem markHere_stores (h : positionFault (Vec.map roundToMm q.pose) = none) :
    markHere p tag b s = storeMark s p tag b.mark (Vec.map roundToMm q.pose) b.speedCap b.label := by
  simp only [markHere, if_neg (Nat.not_lt.2 range), flies, if_neg rigged, pose, label, h, Bool.false_eq_true, if_false]

end Here

/-! ## MARK_SET and MARK_HERE (R53 to R55, R57) -/

/-- An accepted MARK_SET or MARK_HERE stores the mark at its point. -/
theorem exec_stores (p : Port) (tag : Byte) (n : Nat) (point : Vec3) (cap : Nat) (label : List Byte) (c : Instr)
    (s : State) (settled : s.hands.changes = []) (range : n ≤ 63) (position : positionFault point = none)
    (printable : labelFault label = none) (request : c = .markSet p tag ⟨n, point, cap, label⟩ ∨
      (c = .markHere p tag ⟨n, cap, label⟩ ∧ s.carrier.mode ≠ .offline ∧ s.carrier.poseLost = false ∧
        ∃ q, s.path = some q ∧ point = ⟨roundToMm q.pose.x, roundToMm q.pose.y, roundToMm q.pose.z⟩))
    (takes : s.takes p c = true) : exec c s = .next (storeMark (s.served p c [] []) p tag n point cap label) := by
  obtain rfl | ⟨rfl, rigged, pose, q, flies, rfl⟩ := request
  · rw [exec_markSet p tag s settled _ takes, markSet_stores p tag _ _ range position printable]
  · rw [exec_markHere p tag s settled _ takes, markHere_stores p tag _ _ range q (by rwa [served_path])
      (by rwa [served_carrier]) (by rwa [served_carrier]) printable position]
    rfl

/-- Settles O41: the accepted requests by `exec_stores`, the refusals by the branch of the request that each takes. -/
theorem markSetAndHereStore : Obligations.MarkSetAndHereStore := by
  refine ⟨?_, roundToMm_nearest,
    fun label => ⟨labelFault_long label, fun short => ⟨labelFault_printable label short, ?_⟩⟩, ?_⟩
  · intro p tag n point cap label c s settled range position printable request takes kept clamped verdict m close
    have stores := exec_stores p tag n point cap label c s settled range position printable request takes
    have close_eq : storedClose s tag n cap = close := by
      simp only [storedClose, clampStatus, speedCapClamped_iff]
      rfl
    refine ⟨fun free => ?_, fun old held => ?_⟩
    · rw [stores, storeMark_new s p tag n point cap label c free, close_eq]
      rfl
    · rw [stores, storeMark_replaces s p tag n point cap label c old held, close_eq]
      rfl
  · rintro before b after rfl bad first
    exact labelFault_unprintable before after b short bad first
  · intro p tag n point cap label s settled put here refused
    have put_refused : ∀ status code, markSet p tag ⟨n, point, cap, label⟩ (s.served p put [] []) =
        (s.served p put [] []).close p tag status n code → refused put status code := fun status code h takes => by
      rw [exec_markSet p tag s settled _ takes, h, served_close_nil]
    have here_refused : ∀ status code, markHere p tag ⟨n, cap, label⟩ (s.served p here [] []) =
        (s.served p here [] []).close p tag status n code → refused here status code := fun status code h takes => by
      rw [exec_markHere p tag s settled _ takes, h, served_close_nil]
    refine ⟨fun past => ⟨put_refused _ _ (markSet_badNumber p tag _ _ past),
        here_refused _ _ (markHere_badNumber p tag _ _ past)⟩,
      fun range => ⟨fun axis outside => put_refused _ _ (markSet_badPosition p tag _ _ range axis outside),
        fun code position bad => put_refused _ _ (markSet_badLabel p tag _ _ range position code bad),
        fun offline => here_refused _ _ (markHere_offline p tag _ _ range (by rwa [served_carrier])), ?_⟩⟩
    intro q flies rigged
    have flies' : (s.served p here [] []).path = some q := by rwa [served_path]
    have rigged' : (s.served p here [] []).carrier.mode ≠ .offline := by rwa [served_carrier]
    refine ⟨fun lost => here_refused _ _ (markHere_poseLost p tag _ _ range q flies' rigged' (by rwa [served_carrier])),
      fun kept => ?_⟩
    have pose : (s.served p here [] []).carrier.poseLost = false := by rwa [served_carrier]
    exact ⟨fun code bad => here_refused _ _ (markHere_badLabel p tag _ _ range q flies' rigged' pose code bad),
      fun axis printable outside =>
        here_refused _ _ (markHere_badPosition p tag _ _ range q flies' rigged' pose printable axis outside)⟩

end Sys2Proof.Proofs
end

section
namespace Sys2Proof.Proofs
open Sys2Proof.Machine

/-! ## Carrier control: the taking of a request -/

theorem served_boxKeptIn (s : State) (p : Port) (c : Instr) (as : List Answer) (ns : List Notice) :
    (s.served p c as ns).boxKeptIn = s.boxKeptIn := by
  simp [State.boxKeptIn]

/-- With no step result standing that it must follow, a request to carrier control is judged in the state in which its
owner takes it (R110, entry 3). -/
theorem take_carrierReady (s : State) (p : Port) (tag : Byte) (c : Instr) (owner : State → State)
    (takes : s.takes p c = true) (settled : s.carrierSettled) :
    s.take p tag c (fun t => owner (carrierReady t)) = owner (s.served p c [] []) := by
  rw [take_of_takes _ _ _ _ _ takes, carrierReady_settled _ (served_carrierSettled _ _ _ _ _ settled)]

section Taken

variable (p : Port) (tag : Byte) (s : State)

theorem exec_run (takes : s.takes p (.run p tag) = true) :
    exec (.run p tag) s = .next (Machine.run p tag (s.served p (.run p tag) [] [])) :=
  congrArg Host.Outcome.next (take_of_takes _ _ _ _ _ takes)

theorem exec_stop (takes : s.takes p (.stop p tag) = true) :
    exec (.stop p tag) s = .next (Machine.stop p tag (s.served p (.stop p tag) [] [])) :=
  congrArg Host.Outcome.next (take_of_takes _ _ _ _ _ takes)

theorem exec_takeStick (takes : s.takes p (.takeStick p tag) = true) :
    exec (.takeStick p tag) s = .next (Machine.takeStick p tag (s.served p (.takeStick p tag) [] [])) :=
  congrArg Host.Outcome.next (take_of_takes _ _ _ _ _ takes)

theorem exec_releaseStick (takes : s.takes p (.releaseStick p tag) = true) :
    exec (.releaseStick p tag) s = .next (Machine.releaseStick p tag (s.served p (.releaseStick p tag) [] [])) :=
  congrArg Host.Outcome.next (take_of_takes _ _ _ _ _ takes)

theorem exec_unpark (takes : s.takes p (.unpark p tag) = true) :
    exec (.unpark p tag) s = .next (Machine.unpark p tag (s.served p (.unpark p tag) [] [])) :=
  congrArg Host.Outcome.next (take_of_takes _ _ _ _ _ takes)

theorem exec_clearHalt (takes : s.takes p (.clearHalt p tag) = true) :
    exec (.clearHalt p tag) s = .next (Machine.clearHalt p tag (s.served p (.clearHalt p tag) [] [])) :=
  congrArg Host.Outcome.next (take_of_takes _ _ _ _ _ takes)

variable (settled : s.carrierSettled)
include settled

theorem exec_steer (v : Vec3) (takes : s.takes p (.steer p tag v) = true) :
    exec (.steer p tag v) s = .next (Machine.steer p tag v (s.served p (.steer p tag v) [] [])) :=
  congrArg Host.Outcome.next (take_carrierReady _ _ _ _ _ takes settled)

theorem exec_park (takes : s.takes p (.park p tag) = true) :
    exec (.park p tag) s = .next (Machine.park p tag (s.served p (.park p tag) [] [])) :=
  congrArg Host.Outcome.next (take_carrierReady _ _ _ _ _ takes settled)

theorem exec_halt (takes : s.takes p (.halt p tag) = true) :
    exec (.halt p tag) s = .next (Machine.halt p tag (s.served p (.halt p tag) [] [])) :=
  congrArg Host.Outcome.next (take_carrierReady _ _ _ _ _ takes settled)

end Taken

/-! ## The refusals of RUN and STOP (R73, R81) -/

section Refusals

variable (p : Port) (tag : Byte) (v : Vec3) (s : State)

theorem run_notPermitted : Machine.run .safety tag s = s.close .safety tag .notPermitted 0 0 := rfl

theorem run_wrongMode (mode : s.carrier.mode ≠ .hold) : Machine.run .rig tag s = s.close .rig tag .wrongMode 0 0 := by
  simp [Machine.run, mode]

theorem run_noRecord (mode : s.carrier.mode = .hold) (empty : s.queue.entries = []) :
    Machine.run .rig tag s = s.close .rig tag .noRecord 0 0 := by
  simp [Machine.run, mode, empty]

theorem run_windHold (mode : s.carrier.mode = .hold) (moves : s.queue.entries ≠ []) (wind : s.carrier.windMirror = true) :
    Machine.run .rig tag s = s.close .rig tag .windHold 0 0 := by
  simp [Machine.run, mode, moves, wind]

theorem run_conflict (mode : s.carrier.mode = .hold) (moves : s.queue.entries ≠ []) (calm : s.carrier.windMirror = false)
    (out : s.boxKeptIn = false) : Machine.run .rig tag s = s.close .rig tag .conflict 0 0 := by
  simp [Machine.run, mode, moves, calm, out]

theorem stop_wrongMode (travel : s.carrier.mode ≠ .travel) (steer : s.carrier.mode ≠ .steer) :
    Machine.stop p tag s = s.close p tag .wrongMode 0 0 := by
  unfold Machine.stop
  split
  next h => exact absurd h travel
  next h => exact absurd h steer
  next => rfl

/-! ## The refusals of the stick requests (R92, R93, R95) -/

theorem takeStick_notPermitted : Machine.takeStick .safety tag s = s.close .safety tag .notPermitted 0 0 := rfl

theorem takeStick_wrongMode (mode : s.carrier.mode ≠ .hold) :
    Machine.takeStick .rig tag s = s.close .rig tag .wrongMode 0 0 := by
  simp [Machine.takeStick, mode]

theorem takeStick_windHold (mode : s.carrier.mode = .hold) (wind : s.carrier.windMirror = true) :
    Machine.takeStick .rig tag s = s.close .rig tag .windHold 0 0 := by
  simp [Machine.takeStick, mode, wind]

theorem takeStick_conflict (mode : s.carrier.mode = .hold) (calm : s.carrier.windMirror = false)
    (out : s.boxKeptIn = false) : Machine.takeStick .rig tag s = s.close .rig tag .conflict 0 0 := by
  simp [Machine.takeStick, mode, calm, out]

theorem steer_notPermitted : Machine.steer .safety tag v s = s.close .safety tag .notPermitted 0 0 := rfl

theorem steer_wrongMode (mode : s.carrier.mode ≠ .steer) :
    Machine.steer .rig tag v s = s.close .rig tag .wrongMode 0 0 := by
  simp [Machine.steer, mode]

theorem releaseStick_notPermitted : Machine.releaseStick .safety tag s = s.close .safety tag .notPermitted 0 0 := rfl

theorem releaseStick_wrongMode (mode : s.carrier.mode ≠ .steer) :
    Machine.releaseStick .rig tag s = s.close .rig tag .wrongMode 0 0 := by
  simp [Machine.releaseStick, mode]

/-! ## The refusals of PARK, UNPARK and HALT (R96, R97, R101) -/

theorem park_wrongMode (mode : s.carrier.mode ≠ .hold) : Machine.park p tag s = s.close p tag .wrongMode 0 0 :=
  if_pos mode

theorem park_notAtRest (mode : s.carrier.mode = .hold) (moving : s.carrier.lastAtRest = false) :
    Machine.park p tag s = s.close p tag .notAtRest 0 0 := by
  simp [Machine.park, mode, moving]

theorem unpark_wrongMode (mode : s.carrier.mode ≠ .parked) : Machine.unpark p tag s = s.close p tag .wrongMode 0 0 :=
  if_pos mode

theorem halt_wrongMode (mode : s.carrier.mode = .offline) : Machine.halt p tag s = s.close p tag .wrongMode 0 0 :=
  if_pos mode

/-! ## The refusals of CLEAR_HALT before its conditions (R108) -/

theorem clearHalt_notPermitted : Machine.clearHalt .rig tag s = s.close .rig tag .notPermitted 0 0 := rfl

theorem clearHalt_notHalted (mode : s.carrier.mode.isHalted = false) :
    Machine.clearHalt .safety tag s = s.close .safety tag .wrongMode 0 0 := by
  simp [Machine.clearHalt, mode]

theorem clearHalt_poseLost (mode : s.carrier.mode.isHalted = true) (lost : s.carrier.poseLost = true) :
    Machine.clearHalt .safety tag s = s.close .safety tag .poseLost 0 0 := by
  simp [Machine.clearHalt, mode, lost]

theorem clearHalt_stopping (mode : s.carrier.mode = .halted .stopping) (held : s.carrier.poseLost = false) :
    Machine.clearHalt .safety tag s = s.close .safety tag .wrongMode 0 0 := by
  simp [Machine.clearHalt, mode, held, Mode.isHalted]

end Refusals

/-- A request whose meaning closes it at once leaves its CLOSE at the port and nothing else. -/
theorem refused_of_close {c : Instr} {p : Port} {tag : Byte} {status : Status} {s t : State}
    (run : exec c s = .next t) (close : t = (s.served p c [] []).close p tag status 0 0) :
    exec c s = .next (s.served p c [closing tag status 0 0] []) := by
  rw [run, close, served_close_nil]

/-- Settles O31: each request is judged where its owner takes it, and there one branch refuses it. -/
theorem carrierRequestsAreRefused : Obligations.CarrierRequestsAreRefused := by
  intro tag v s m refusal settled
  refine ⟨fun takes => refused_of_close (exec_run _ _ _ takes) (run_notPermitted _ _),
    fun takes => refused_of_close (exec_takeStick _ _ _ takes) (takeStick_notPermitted _ _),
    fun calm takes => refused_of_close (exec_steer _ _ _ calm _ takes) (steer_notPermitted _ _ _),
    fun takes => refused_of_close (exec_releaseStick _ _ _ takes) (releaseStick_notPermitted _ _),
    fun takes => refused_of_close (exec_clearHalt _ _ _ takes) (clearHalt_notPermitted _ _),
    fun mode => ⟨fun takes => refused_of_close (exec_run _ _ _ takes) (run_wrongMode _ _ (by simpa using mode)),
      fun takes => refused_of_close (exec_takeStick _ _ _ takes) (takeStick_wrongMode _ _ (by simpa using mode)),
      fun p calm takes => refused_of_close (exec_park _ _ _ calm takes) (park_wrongMode _ _ _ (by simpa using mode))⟩,
    fun mode => ⟨fun calm takes =>
        refused_of_close (exec_steer _ _ _ calm _ takes) (steer_wrongMode _ _ _ (by simpa using mode)),
      fun takes => refused_of_close (exec_releaseStick _ _ _ takes) (releaseStick_wrongMode _ _ (by simpa using mode))⟩,
    fun mode p takes => refused_of_close (exec_unpark _ _ _ takes) (unpark_wrongMode _ _ _ (by simpa using mode)),
    fun travel steer p takes =>
      refused_of_close (exec_stop _ _ _ takes) (stop_wrongMode _ _ _ (by simpa using travel) (by simpa using steer)),
    fun mode p takes => refused_of_close (exec_halt _ _ _ (.inr (.inr mode)) takes)
      (halt_wrongMode _ _ _ (by simpa using mode)),
    fun mode calm moving p takes => refused_of_close (exec_park _ _ _ calm takes)
      (park_notAtRest _ _ _ (by simpa using mode) (by simpa using moving)),
    ?_, ?_, ?_, ?_, ?_,
    fun mode takes => refused_of_close (exec_clearHalt _ _ _ takes) (clearHalt_notHalted _ _ (by simpa using mode)),
    fun mode lost takes => refused_of_close (exec_clearHalt _ _ _ takes)
      (clearHalt_poseLost _ _ (by simpa using mode) (by simpa using lost)),
    fun mode held takes => refused_of_close (exec_clearHalt _ _ _ takes)
      (clearHalt_stopping _ _ (by simpa using mode) (by simpa using held))⟩
  · exact fun mode empty takes => refused_of_close (exec_run _ _ _ takes)
      (run_noRecord _ _ (by simpa using mode) (by simpa using empty))
  · exact fun mode moves wind takes => refused_of_close (exec_run _ _ _ takes)
      (run_windHold _ _ (by simpa using mode) (by simpa using moves) (by simpa using wind))
  · exact fun mode wind takes => refused_of_close (exec_takeStick _ _ _ takes)
      (takeStick_windHold _ _ (by simpa using mode) (by simpa using wind))
  · exact fun mode moves calm out takes => refused_of_close (exec_run _ _ _ takes)
      (run_conflict _ _ (by simpa using mode) (by simpa using moves) (by simpa using calm) (by rwa [served_boxKeptIn]))
  · exact fun mode calm out takes => refused_of_close (exec_takeStick _ _ _ takes)
      (takeStick_conflict _ _ (by simpa using mode) (by simpa using calm) (by rwa [served_boxKeptIn]))

end Sys2Proof.Proofs
end

section
namespace Sys2Proof.Proofs
open Sys2Proof.Machine

/-! ## The change of mode (R89) -/

section Mode

variable (c : Carrier) (m : Mode) (new : m ≠ .steer)
include new

/-- A change between modes other than STEER frees the stick. -/
theorem toMode_of_ne_steer (old : c.mode ≠ .steer) : c.toMode m = { c with mode := m, stickOwned := false } := by
  simp [Carrier.toMode, new, old]

/-- A change that leaves STEER frees the stick and zeroes the steer vector. -/
theorem toMode_of_steer (old : c.mode = .steer) :
    c.toMode m = { c with mode := m, stickOwned := false, steer := Vec.zero } := by
  simp [Carrier.toMode, new, old]

end Mode

/-! ## The published step result at carrier control (R90, R103) -/

section Result

variable (s : State) (r : StepResult) (stands : s.hands.stepCarrier = some r)
include stands

theorem takeCarrierResult_offline (mode : s.carrier.mode = .offline) :
    takeCarrierResult s = { s with hands := { s.hands with stepCarrier := none } } := by
  simp [takeCarrierResult, stands, State.rigged, mode]

theorem takeCarrierResult_rigged (mode : s.carrier.mode ≠ .offline) :
    takeCarrierResult s = carrierStep r { s with hands := { s.hands with stepCarrier := none } } := by
  simp [takeCarrierResult, stands, State.rigged, mode]

end Result

theorem carrierStep_stores (s : State) (r : StepResult) (h : ¬(s.carrier.mode = .halted .stopping ∧ r.atRest = true)) :
    carrierStep r s = { s with carrier := { s.carrier with
      lastAtRest := r.atRest, steerAge := min (s.carrier.steerAge + 1) 50 } } := by
  unfold carrierStep
  exact if_neg (by simpa using h)

theorem carrierStep_stops (s : State) (r : StepResult) (mode : s.carrier.mode = .halted .stopping)
    (rest : r.atRest = true) :
    let c := { s.carrier with
      lastAtRest := r.atRest, steerAge := min (s.carrier.steerAge + 1) 50, mode := .halted .stopped, stickOwned := false }
    carrierStep r s = State.told { s with
        carrier := c, hands := { s.hands with raises := s.hands.raises ++ [.entry] } }
      [modeNews .stopped c (.halted .stopping)] := by
  unfold carrierStep
  simp [mode, rest, toMode_of_ne_steer]

/-! ## End travel (R72) -/

theorem endTravel_acts (h : EndHand) (s : State) (mode : s.carrier.mode = .travel) (last : h.number = s.carrier.begun) :
    let c := { s.carrier with mode := .hold, stickOwned := false }
    endTravel h s = State.told { s with carrier := c } [modeNews .endTravel c .travel (some h.reason)] := by
  simp [endTravel, mode, last, toMode_of_ne_steer]

theorem endTravel_stale (h : EndHand) (s : State) (stale : s.carrier.mode ≠ .travel ∨ h.number ≠ s.carrier.begun) :
    endTravel h s = s := by
  unfold endTravel
  exact if_neg (by simpa [← imp_iff_not_or, imp.swap] using stale)

/-! ## The wind hold (R98) -/

section Wind

variable (hold : Bool) (s : State)

theorem windHoldChange_offline (mode : s.carrier.mode = .offline) : windHoldChange hold s = s := if_pos mode

theorem windHoldChange_follows (mode : s.carrier.mode ≠ .offline)
    (h : hold = false ∨ (s.carrier.mode ≠ .steer ∧ s.carrier.mode ≠ .travel)) :
    windHoldChange hold s = { s with carrier := { s.carrier with windMirror := hold } } := by
  obtain rfl | ⟨steer, travel⟩ := h
  · simp [windHoldChange, mode]
  · unfold windHoldChange
    rw [if_neg mode]
    split
    · split
      next h => exact absurd h steer
      next h => exact absurd h travel
      next => rfl
    · rfl

theorem windHoldChange_steer (mode : s.carrier.mode = .steer) :
    let c := { s.carrier with windMirror := true, mode := .hold, stickOwned := false, steer := ⟨0, 0, 0⟩ }
    windHoldChange true s = State.told { s with carrier := c } [modeNews .wind c .steer] := by
  simp [windHoldChange, mode, toMode_of_steer, Vec.zero]

theorem windHoldChange_travel (mode : s.carrier.mode = .travel) :
    let c := { s.carrier with windMirror := true, mode := .hold, stickOwned := false }
    windHoldChange true s = State.told { s with
        carrier := c, hands := { s.hands with travel := s.hands.travel ++ [.ended] } } [modeNews .wind c .travel] := by
  simp [windHoldChange, mode, toMode_of_ne_steer]

end Wind

theorem execEndTravel_cons (s : State) (h : EndHand) (rest : List EndHand) (stands : s.hands.ends = h :: rest) :
    exec .endTravel s = .next (endTravel h { s with hands := { s.hands with ends := rest } }) := by
  simp [exec, execEndTravel, stands]

theorem execWindHoldChange_cons (s : State) (hold : Bool) (rest : List Bool) (stands : s.hands.windChanges = hold :: rest) :
    exec .windHoldChange s = .next (windHoldChange hold { s with hands := { s.hands with windChanges := rest } }) := by
  simp [exec, execWindHoldChange, stands]

/-- Settles O33: each hand-off by the way in which carrier control takes it, in the state that the hand-off has left. -/
theorem carrierTakesHandOffs : Obligations.CarrierTakesHandOffs := by
  refine ⟨fun s r stands => ?_, fun s h rest stands => ?_, fun s hold rest stands => ?_⟩
  · refine ⟨fun offline => ?_, fun rigged flies => ?_, fun mode rest => ?_⟩
    · exact congrArg Host.Outcome.next (takeCarrierResult_offline s r stands offline)
    · exact congrArg Host.Outcome.next ((takeCarrierResult_rigged s r stands rigged).trans (carrierStep_stores _ r flies))
    · exact congrArg Host.Outcome.next
        ((takeCarrierResult_rigged s r stands (by simp [mode])).trans (carrierStep_stops _ r mode rest))
  · rw [execEndTravel_cons s h rest stands]
    exact ⟨fun mode last => congrArg Host.Outcome.next (endTravel_acts h _ mode last),
      fun stale => congrArg Host.Outcome.next (endTravel_stale h _ stale)⟩
  · rw [execWindHoldChange_cons s hold rest stands]
    refine ⟨fun offline => congrArg Host.Outcome.next (windHoldChange_offline hold _ offline),
      fun rigged quiet => congrArg Host.Outcome.next (windHoldChange_follows hold _ rigged quiet), ?_, ?_⟩
    · rintro rfl mode
      exact congrArg Host.Outcome.next (windHoldChange_steer _ mode)
    · rintro rfl mode
      exact congrArg Host.Outcome.next (windHoldChange_travel _ mode)

end Sys2Proof.Proofs
end

section
namespace Sys2Proof.Proofs
open Sys2Proof.Machine

/-! ## The conditions of Table 5-5 -/

theorem clearCondition_served (s : State) (p : Port) (c : Instr) (as : List Answer) (ns : List Notice) (cause : Cause) :
    clearCondition (s.served p c as ns) cause = clearCondition s cause := by
  funext w
  cases cause <;> simp [clearCondition]

theorem clearFault_served (s : State) (p : Port) (c : Instr) (as : List Answer) (ns : List Notice) :
    clearFault (s.served p c as ns) = clearFault s := by
  have rows : clearRow (s.served p c as ns) = clearRow s := by
    funext cause
    rw [clearRow, clearRow, clearCondition_served]
  rw [clearFault, clearFault, rows, served_estop]

theorem clearRow_eq_none_iff (s : State) (cause : Cause) :
    clearRow s cause = none ↔ ∀ w, clearCondition s cause w = false := by
  rw [clearRow, Option.map_eq_none_iff, winches_find?_eq_none_iff]

theorem clearRow_eq_some (s : State) (cause : Cause) (w : Winch) (holds : clearCondition s cause w = true)
    (first : ∀ v < w, clearCondition s cause v = false) : clearRow s cause = some (cause, w) := by
  rw [clearRow, (winches_find?_eq_some_iff _ w).2 ⟨holds, first⟩, Option.map_some]

theorem clearFault_estop (s : State) (h : s.estop = true) : clearFault s = some (.estop, 0) := if_pos h

section Rows

variable (s : State) (inactive : s.estop = false)
include inactive

theorem clearFault_of_none (h : ∀ cause ∈ clearRows, ∀ w, clearCondition s cause w = false) : clearFault s = none := by
  rw [clearFault, inactive, List.findSome?_eq_none_iff.2 fun cause mem => (clearRow_eq_none_iff s cause).2 (h cause mem)]
  rfl

/-- The first condition in the order of the table, and in its row on the lowest winch, is the one that refuses. -/
theorem clearFault_of_first (n : Nat) (row : n < clearRows.length) (w : Winch)
    (holds : clearCondition s clearRows[n] w = true) (first : ∀ v < w, clearCondition s clearRows[n] v = false)
    (above : ∀ m (less : m < n), ∀ v, clearCondition s clearRows[m] v = false) :
    clearFault s = some (clearRows[n], w.val) := by
  have found : clearRows.findSome? (clearRow s) = some (clearRows[n], w) := by
    refine List.findSome?_eq_some_iff.2 ⟨clearRows.take n, clearRows[n], clearRows.drop (n + 1), ?_,
      clearRow_eq_some s _ w holds first, fun cause mem => ?_⟩
    · rw [List.getElem_cons_drop, List.take_append_drop]
    · obtain ⟨m, less, rfl⟩ := List.mem_take_iff_getElem.1 mem
      exact (clearRow_eq_none_iff s _).2 (above m (by omega))
  rw [clearFault, inactive, found]
  rfl

end Rows

/-! ## CLEAR_HALT in HALTED/STOPPED with the pose held (R108, R109) -/

section Stopped

variable (p : Port) (tag : Byte) (s : State) (mode : s.carrier.mode = .halted .stopped) (held : s.carrier.poseLost = false)
include mode held

theorem clearHalt_haltActive (cause : Cause) (w : Nat) (h : clearFault s = some (cause, w)) :
    Machine.clearHalt .safety tag s = s.close .safety tag .haltActive cause.code w := by
  simp [Machine.clearHalt, mode, held, h, Mode.isHalted]

theorem clearHalt_accepted (h : clearFault s = none) : Machine.clearHalt .safety tag s = acceptClear .safety tag s := by
  simp [Machine.clearHalt, mode, held, h, Mode.isHalted]

theorem acceptClear_served (c : Instr) :
    let k := { s.carrier with mode := .hold, stickOwned := false, causes := [], first := none }
    acceptClear p tag (s.served p c [] []) = State.served { s with carrier := k } p c [closing tag .ok 0 0]
      [.halt .cleared none [] none false, modeNews .cleared k (.halted .stopped)] := by
  simp [acceptClear, toMode_of_ne_steer, mode, held]

end Stopped

/-- Settles O34: the rows of the statement are those of `clearRows`, and `clearFault` finds the first that holds. -/
theorem clearHaltTestsConditions : Obligations.ClearHaltTestsConditions := by
  intro tag s takes mode held c k row code
  have rows : ∀ n (h : n < clearRows.length) w,
      (row n w ↔ clearCondition s clearRows[n] w = true) ∧ code n = clearRows[n].code := by
    intro n h w
    have h' : n < 6 := h
    interval_cases n <;> simp [clearRows, clearCondition, row, code, Cause.code, Option.any_eq_true]
  have fails : ∀ n (h : n < clearRows.length) w, ¬row n w → clearCondition s clearRows[n] w = false := fun n h w out =>
    Bool.eq_false_iff.2 (mt ((rows n h w).1).2 out)
  have run := exec_clearHalt .safety tag s takes
  have mode' : (s.served .safety c [] []).carrier.mode = .halted .stopped := by rwa [served_carrier]
  have held' : (s.served .safety c [] []).carrier.poseLost = false := by rwa [served_carrier]
  have refused : ∀ cause w, clearFault s = some (cause, w) →
      exec c s = .next (s.served .safety c [closing tag .haltActive cause.code w] []) := fun cause w h => by
    rw [run, clearHalt_haltActive tag _ mode' held' cause w (by rwa [clearFault_served]), served_close_nil]
  refine ⟨fun inactive none_ => ?_, fun active => refused _ _ (clearFault_estop s active), ?_⟩
  · have clear : clearFault s = none := clearFault_of_none s inactive fun cause mem w => by
      obtain ⟨n, h, rfl⟩ := List.getElem_of_mem mem
      exact fails n h w (none_ n h w)
    rw [run, clearHalt_accepted tag _ mode' held' (by rwa [clearFault_served]), acceptClear_served _ _ _ mode held]
  · intro n h w inactive holds first above
    rw [(rows n h w).2]
    exact refused _ _ (clearFault_of_first s inactive n h w ((rows n h w).1.1 holds)
      (fun v less => fails n h v (first v less)) fun m less v => fails m (less.trans h) v (above m less v))

end Sys2Proof.Proofs
end

section
namespace Sys2Proof.Proofs
open Sys2Proof.Machine

/-! ## A report of a halt cause (R99, R102, R104, R105) -/

/-- R102, R104: whatever the mode was, a halt frees the stick, and the steer vector of STEER is zeroed. -/
theorem toMode_halted (c : Carrier) (sub : Sub) : c.toMode (.halted sub) = { c with
    mode := .halted sub, stickOwned := false, steer := if c.mode = .steer then ⟨0, 0, 0⟩ else c.steer } := by
  by_cases h : c.mode = .steer
  · rw [toMode_of_steer _ _ (by simp) h, if_pos h]
    rfl
  · rw [toMode_of_ne_steer _ _ (by simp) h, if_neg h]

theorem endTravelFrom_eq (s : State) (m : Mode) : s.endTravelFrom m = { s with hands := { s.hands with
    travel := if m = .travel then s.hands.travel ++ [.ended] else s.hands.travel } } := by
  by_cases h : m = .travel
  · simp [State.endTravelFrom, h]
  · simp [State.endTravelFrom, h]

/-- R107: the HALT notice of a report that joins the set, with what carrier control then holds. -/
def haltNews (r : Report) (c : Carrier) : Notice := .halt .raised (some r) c.causes c.first c.poseLost

/-- R99: carrier control's record with the cause of a report in its set. -/
def Carrier.joined (c : Carrier) (r : Report) : Carrier :=
  { c with causes := c.causes ++ [r.cause], first := if c.causes = [] then some r else c.first }

theorem addCause_eq (c : Carrier) (r : Report) : c.addCause r = Carrier.joined c r := by
  simp [Carrier.addCause, Carrier.joined]

section Raise

variable (r : Report) (s : State)

theorem raiseCause_ignored (h : s.carrier.mode = .offline ∨ r.cause ∈ s.carrier.causes) : raiseCause r s = s := by
  obtain h | h := h
  · exact if_pos h
  · simp [raiseCause, h]

variable (fresh : r.cause ∉ s.carrier.causes)
include fresh

theorem raiseCause_stops (mode : s.carrier.mode = .hold ∨ s.carrier.mode = .steer ∨ s.carrier.mode = .travel)
    (controlled : r.cause.immediate = false) :
    let k := { Carrier.joined s.carrier r with
      mode := .halted .stopping, stickOwned := false,
      steer := if s.carrier.mode = .steer then ⟨0, 0, 0⟩ else s.carrier.steer }
    raiseCause r s = State.told { s with
        carrier := k
        hands := { s.hands with
          travel := if s.carrier.mode = .travel then s.hands.travel ++ [.ended] else s.hands.travel } }
      [haltNews r k, modeNews .halt k s.carrier.mode] := by
  obtain mode | mode | mode := mode <;>
    simp [raiseCause, fresh, controlled, mode, addCause_eq, toMode_halted, endTravelFrom_eq, State.haltRaised, haltNews,
      Carrier.joined]

theorem raiseCause_parked (mode : s.carrier.mode = .parked) (controlled : r.cause.immediate = false) :
    let k := { Carrier.joined s.carrier r with mode := .halted .stopped, stickOwned := false }
    raiseCause r s = State.told { s with
        carrier := k, hands := { s.hands with raises := s.hands.raises ++ [.entry] } }
      [haltNews r k, modeNews .halt k s.carrier.mode] := by
  simp [raiseCause, fresh, controlled, mode, addCause_eq, toMode_halted, State.haltRaised, haltNews, Carrier.joined]

theorem raiseCause_immediate (rigged : s.carrier.mode ≠ .offline) (flies : s.carrier.mode ≠ .halted .stopped)
    (immediate : r.cause.immediate = true) :
    let k := { Carrier.joined s.carrier r with
      mode := .halted .stopped, stickOwned := false,
      steer := if s.carrier.mode = .steer then ⟨0, 0, 0⟩ else s.carrier.steer, poseLost := true }
    raiseCause r s = State.told { s with
        carrier := k
        hands := { s.hands with
          raises := s.hands.raises ++ [.entry], freeze := true,
          travel := if s.carrier.mode = .travel then s.hands.travel ++ [.ended] else s.hands.travel } }
      [haltNews r k, modeNews (if s.carrier.mode.isHalted then .escalated else .halt) k s.carrier.mode] := by
  have modes : s.carrier.mode = .hold ∨ s.carrier.mode = .steer ∨ s.carrier.mode = .travel ∨ s.carrier.mode = .parked ∨
      s.carrier.mode = .halted .stopping := by
    revert rigged flies
    rcases s.carrier.mode with _ | _ | _ | _ | _ | (_ | _) <;> simp
  obtain mode | mode | mode | mode | mode := modes <;>
    simp [raiseCause, fresh, immediate, mode, addCause_eq, toMode_halted, endTravelFrom_eq, State.haltRaised, haltNews,
      Carrier.joined, Mode.isHalted]

theorem raiseCause_joins (mode : s.carrier.mode.isHalted = true) (controlled : r.cause.immediate = false) :
    raiseCause r s = State.told { s with carrier := Carrier.joined s.carrier r } [haltNews r (Carrier.joined s.carrier r)] := by
  obtain ⟨sub, mode⟩ : ∃ sub, s.carrier.mode = .halted sub := by
    cases h : s.carrier.mode with
    | halted sub => exact ⟨sub, rfl⟩
    | _ => simp [h, Mode.isHalted] at mode
  simp [raiseCause, fresh, controlled, mode, addCause_eq, State.haltRaised, haltNews]

variable (mode : s.carrier.mode = .halted .stopped)
include mode

/-- A further immediate cause raises STOP once more; TRACKING does so where the pose is lost already (entry 18). -/
theorem raiseCause_again (immediate : r.cause.immediate = true)
    (other : r.cause ≠ .tracking ∨ s.carrier.poseLost = true) :
    raiseCause r s = State.told { s with
        carrier := Carrier.joined s.carrier r, hands := { s.hands with raises := s.hands.raises ++ [.again] } }
      [haltNews r (Carrier.joined s.carrier r)] := by
  have known : ¬(r.cause = .tracking ∧ s.carrier.poseLost = false) := by
    rintro ⟨tracking, held⟩
    simp [tracking, held] at other
  simp [raiseCause, fresh, immediate, known, mode, addCause_eq, State.haltRaised, haltNews, Carrier.joined]

theorem raiseCause_tracking (cause : r.cause = .tracking) (held : s.carrier.poseLost = false) :
    let k := { Carrier.joined s.carrier r with poseLost := true }
    raiseCause r s = State.told { s with
        carrier := k, hands := { s.hands with raises := s.hands.raises ++ [.again] } }
      [haltNews r k, modeNews .halt k s.carrier.mode] := by
  obtain ⟨_, winch⟩ := r
  obtain rfl : _ = Cause.tracking := cause
  simp [raiseCause, fresh, Cause.immediate, mode, held, addCause_eq, State.haltRaised, haltNews, Carrier.joined]

end Raise

/-! ## The events that bring a report (R99 to R101) -/

theorem exec_faultReport (s : State) (r : Report) (rest : List Report) (settled : s.carrierSettled)
    (stands : s.hands.faults = r :: rest) :
    exec .faultReport s = .next (raiseCause r { s with hands := { s.hands with faults := rest } }) := by
  simp [exec, execFaultReport, stands, carrierReady_settled s settled]

theorem exec_estopActive (s : State) (settled : s.carrierSettled) (inactive : s.estop = false) :
    exec (.estopActive true) s = .next (raiseCause ⟨.estop, none⟩ { s with estop := true }) := by
  have settled' : State.carrierSettled { s with estop := true } := settled
  simp [exec, execEstopActive, estopActive, inactive, carrierReady_settled _ settled']

theorem exec_halt_raises (p : Port) (tag : Byte) (s : State) (settled : s.carrierSettled)
    (takes : s.takes p (.halt p tag) = true) (rigged : s.carrier.mode ≠ .offline) :
    exec (.halt p tag) s =
      .next (raiseCause ⟨.request, none⟩ (s.served p (.halt p tag) [closing tag .ok 0 0] [])) := by
  rw [exec_halt p tag s settled takes, Machine.halt, if_neg (by simpa using rigged), served_close_nil]

/-- Settles O32: each event hands `raiseCause` its report, in a state with the carrier and the hand-offs of the base, and
what the report leaves there is what it leaves of the base. -/
theorem reportsAndLineHalt : Obligations.ReportsAndLineHalt := by
  refine ⟨fun s base c r ends settled event => ?_, fun s => rfl, fun s active => ?_⟩
  · have run : exec c s = .next (raiseCause r (ends base [])) ∧ (ends base []).carrier = s.carrier ∧
        (ends base []).hands = base.hands ∧ ∀ k h ns,
          State.told { ends base [] with carrier := k, hands := h } ns = ends { base with carrier := k, hands := h } ns := by
      obtain ⟨rest, rfl, stands, rfl, rfl⟩ | ⟨rfl, inactive, rfl, rfl, rfl⟩ | ⟨p, tag, rfl, takes, rigged, rfl, rfl, rfl⟩ :=
        event
      · exact ⟨exec_faultReport s r rest settled stands, rfl, rfl, fun _ _ _ => rfl⟩
      · exact ⟨exec_estopActive s settled inactive, rfl, rfl, fun _ _ _ => rfl⟩
      · exact ⟨exec_halt_raises p tag _ settled takes rigged, by simp, by simp, by simp⟩
    obtain ⟨run, carrier, hands, update⟩ := run
    generalize ends base [] = t at run carrier hands update
    rw [run]
    refine ⟨fun ignored => ?_, fun mode fresh controlled => ?_, fun mode fresh controlled => ?_,
      fun rigged flies fresh immediate => ?_, fun mode fresh controlled => ?_, fun mode fresh cause => ?_,
      fun mode fresh cause held => ?_⟩
    · rw [raiseCause_ignored r t (by rwa [carrier])]
    · rw [raiseCause_stops r t (by rwa [carrier]) (by rwa [carrier]) controlled, carrier, hands, update]
      rfl
    · rw [raiseCause_parked r t (by rwa [carrier]) (by rwa [carrier]) controlled, carrier, hands, update]
      rfl
    · rw [raiseCause_immediate r t (by rwa [carrier]) (by rwa [carrier]) (by rwa [carrier]) immediate, carrier, hands,
        update]
      rfl
    · rw [raiseCause_joins r t (by rwa [carrier]) (by rwa [carrier]) controlled, carrier, hands, update]
      rfl
    · have immediate : r.cause.immediate = true ∧ r.cause ≠ .tracking := by
        obtain cause | cause := cause <;> simp [cause, Cause.immediate]
      rw [raiseCause_again r t (by rwa [carrier]) (by rwa [carrier]) immediate.1 (.inl immediate.2), carrier, hands, update]
      rfl
    · rw [raiseCause_tracking r t (by rwa [carrier]) (by rwa [carrier]) cause (by rwa [carrier]), carrier, hands, update]
      rfl
  · have same : { s with estop := true } = s := by rw [← active]
    simp [exec, execEstopActive, estopActive, active, same]

end Sys2Proof.Proofs
end

section
namespace Sys2Proof.Proofs
open Sys2Proof.Machine

/-! ## The ranges of the counters, block by block -/

theorem quad_toList_all {α : Type} (test : α → Bool) (q : Quad α) : q.toList.all test = true ↔ ∀ w, test (q.get w) = true := by
  simp [Quad.toList, Quad.get, Fin.forall_fin_succ]

theorem oct_toList_all {α : Type} (test : α → Bool) (o : Oct α) : o.toList.all test = true ↔ ∀ l, test (o.get l) = true := by
  simp [Oct.toList, Oct.get, Fin.forall_fin_succ]

/-- Table 7-1: every lane and every winch within its ranges. -/
def tensionInRange (t : Tension) : Prop :=
  (∀ l, (t.lanes.get l).inRange = true) ∧ ∀ w, (t.winches.get w).inRange = true

/-- Table 8-1: every drum counter within its ranges. -/
def drumsInRange (drums : Quad Drum) : Prop := ∀ w, (drums.get w).inRange = true

/-- Table 9-1: every drive, the failure count and the keepalive countdown within their ranges. -/
def busInRange (b : Bus) : Prop := (∀ w, (b.drives.get w).inRange = true) ∧ b.failures ≤ 16 ∧ b.countdown ≤ 25

/-- R79: no entry has reached the count at which it stalls. -/
def stallsInRange (es : List Entry) : Prop := ∀ e ∈ es, e.stall < 250

theorem countersInRange_iff (s : State) : s.countersInRange = true ↔
    tensionInRange s.tension ∧ drumsInRange s.drums ∧ busInRange s.bus ∧ (∀ p, (s.port p).inRange = true) ∧
      s.carrier.steerAge ≤ 50 ∧ s.wind.pulses ≤ 65535 ∧ s.periods < 250 ∧ stallsInRange s.queue.entries := by
  have ports : (∀ p, (s.port p).inRange = true) ↔ s.rig.inRange = true ∧ s.safety.inRange = true :=
    ⟨fun h => ⟨h .rig, h .safety⟩, fun h p => by cases p <;> simp [State.port, h]⟩
  simp only [State.countersInRange, Bool.and_eq_true, quad_toList_all, oct_toList_all]
  simp only [List.all_eq_true, decide_eq_true_eq, ports, tensionInRange, drumsInRange, busInRange, stallsInRange]
  tauto

/-! ## What every event keeps -/

/-- `t` has each agreement of carrier control (R89, R98, R99) and the ranges of the counters where `s` has it. -/
structure Keeps (s t : State) : Prop where
  stick : s.stickAgrees → t.stickAgrees
  halt : s.haltAgrees → t.haltAgrees
  wind : s.windGrounds → t.windGrounds
  counters : s.countersInRange = true → t.countersInRange = true

@[simp] theorem Keeps.refl (s : State) : Keeps s s := ⟨id, id, id, id⟩

theorem Keeps.trans {s t u : State} (h : Keeps s t) (g : Keeps t u) : Keeps s u :=
  ⟨g.stick ∘ h.stick, g.halt ∘ h.halt, g.wind ∘ h.wind, g.counters ∘ h.counters⟩

/-- A fold of events that keep the agreements and the ranges keeps them. -/
theorem keeps_foldl {α : Type} (f : State → α → State) (h : ∀ s a, Keeps s (f s a)) (l : List α) (s : State) :
    Keeps s (l.foldl f s) := by
  induction l generalizing s with
  | nil => exact .refl s
  | cons a rest ih => exact (h s a).trans (ih (f s a))

/-- An event of another block leaves carrier control alone and keeps the counters of each block in their ranges. -/
theorem Keeps.of_blocks {s t : State} (carrier : t.carrier = s.carrier)
    (tension : tensionInRange s.tension → tensionInRange t.tension) (drums : drumsInRange s.drums → drumsInRange t.drums)
    (bus : busInRange s.bus → busInRange t.bus) (ports : ∀ p, (s.port p).inRange = true → (t.port p).inRange = true)
    (pulses : s.wind.pulses ≤ 65535 → t.wind.pulses ≤ 65535) (periods : s.periods < 250 → t.periods < 250)
    (stalls : stallsInRange s.queue.entries → stallsInRange t.queue.entries) : Keeps s t where
  stick h := by rwa [State.stickAgrees, carrier]
  halt h := by rwa [State.haltAgrees, carrier]
  wind h := by rwa [State.windGrounds, carrier]
  counters h := by
    obtain ⟨te, dr, bu, po, ag, pu, pe, st⟩ := (countersInRange_iff s).1 h
    exact (countersInRange_iff t).2
      ⟨tension te, drums dr, bus bu, fun p => ports p (po p), by rwa [carrier], pulses pu, periods pe, stalls st⟩

/-! ## One block at a time -/

section Blocks

variable (s : State)

/-- What no table gives a range, and carrier control does not hold, may change freely. -/
@[simp] theorem keeps_mk (st : Settings) (zs : List Zone) (rb : Option Box) (ms : List Mark) (pa : Option Path) (es : Bool)
    (ha : Hands) (pd : List Instr) :
    Keeps s (State.mk st zs rb ms s.queue s.carrier pa s.tension s.drums s.wind s.bus s.rig s.safety s.periods es ha pd) :=
  ⟨id, id, id, id⟩

theorem keeps_tension (x : Tension) (h : tensionInRange s.tension → tensionInRange x) : Keeps s { s with tension := x } :=
  .of_blocks rfl h id id (fun _ => id) id id id

theorem keeps_drums (x : Quad Drum) (h : drumsInRange s.drums → drumsInRange x) : Keeps s { s with drums := x } :=
  .of_blocks rfl id h id (fun _ => id) id id id

theorem keeps_bus (x : Bus) (h : busInRange s.bus → busInRange x) : Keeps s { s with bus := x } :=
  .of_blocks rfl id id h (fun _ => id) id id id

theorem keeps_wind (x : Wind) (h : s.wind.pulses ≤ 65535 → x.pulses ≤ 65535) : Keeps s { s with wind := x } :=
  .of_blocks rfl id id id (fun _ => id) h id id

theorem keeps_periods (n : Nat) (h : s.periods < 250 → n < 250) : Keeps s { s with periods := n } :=
  .of_blocks rfl id id id (fun _ => id) id h id

theorem keeps_queue (q : MoveQueue) (h : stallsInRange s.queue.entries → stallsInRange q.entries) :
    Keeps s { s with queue := q } :=
  .of_blocks rfl id id id (fun _ => id) id id h

theorem keeps_setPort (p : Port) (r : PortRec) (h : (s.port p).inRange = true → r.inRange = true) :
    Keeps s (s.setPort p r) := by
  cases p with
  | rig => exact .of_blocks rfl id id id (fun q => by cases q with | rig => exact h | safety => exact id) id id id
  | safety => exact .of_blocks rfl id id id (fun q => by cases q with | rig => exact id | safety => exact h) id id id

/-- Another record of carrier control, with what it hands. -/
theorem Keeps.of_carrier {s : State} {k : Carrier} {h : Hands}
    (stick : s.stickAgrees → State.stickAgrees { s with carrier := k })
    (halt : s.haltAgrees → State.haltAgrees { s with carrier := k })
    (wind : s.windGrounds → State.windGrounds { s with carrier := k })
    (age : s.carrier.steerAge ≤ 50 → k.steerAge ≤ 50) : Keeps s { s with carrier := k, hands := h } where
  stick := stick
  halt := halt
  wind := wind
  counters h := by
    obtain ⟨te, dr, bu, po, ag, pu, pe, st⟩ := (countersInRange_iff s).1 h
    exact (countersInRange_iff _).2 ⟨te, dr, bu, fun p => po p, age ag, pu, pe, st⟩

end Blocks

/-! ## Ports: answers, notices and the taking of a request -/

theorem heard_inRange (r : PortRec) (ns : List Notice) : (r.heard ns).inRange = r.inRange := by
  obtain ⟨notices, overflow, h⟩ := heard_frame ns r
  rw [h]
  rfl

@[simp] theorem Keeps.told {s t : State} (h : Keeps s t) (ns : List Notice) : Keeps s (t.told ns) :=
  h.trans (.of_blocks rfl id id id (fun p => by cases p <;> exact (heard_inRange _ ns).trans) id id id)

@[simp] theorem Keeps.answer {s t : State} (h : Keeps s t) (p : Port) (a : Answer) : Keeps s (t.answer p a) :=
  h.trans (keeps_setPort t p _ id)

@[simp] theorem Keeps.close {s t : State} (h : Keeps s t) (p : Port) (tag : Byte) (st : Status) (d1 d2 : Nat) :
    Keeps s (t.close p tag st d1 d2) :=
  h.answer p _

@[simp] theorem Keeps.closeItem {s t : State} (h : Keeps s t) (p : Port) (tag : Byte) (i : Item) (st : Status)
    (d1 d2 : Nat) : Keeps s (t.closeItem p tag i st d1 d2) :=
  h.answer p _

@[simp] theorem Keeps.serve {s t : State} (h : Keeps s t) (p : Port) (tag : Byte) (work : Work) :
    Keeps s (t.serve p tag work) :=
  h.trans (keeps_setPort t p _ id)

@[simp] theorem Keeps.handChanges {s t : State} (h : Keeps s t) (ns : List Nat) : Keeps s (t.handChanges ns) := by
  refine h.trans ?_
  cases ns <;> simp

/-- What a block hands another is in no range. -/
theorem Keeps.hands {s t : State} (h : Keeps s t) (x : Hands) : Keeps s { t with hands := x } :=
  h.trans (keeps_mk t ..)

theorem keeps_arrive (s : State) (p : Port) (c : Instr) : Keeps s (s.arrive p c) := by
  unfold State.arrive
  split
  · exact keeps_setPort s p _ id
  · exact .refl s

theorem keeps_turnAway (s : State) (p : Port) (tag : Byte) (c : Instr) : Keeps s (s.turnAway p tag c) := by
  obtain h | h | ⟨v, -, -, -, h⟩ := turnAway_cases s p tag c
  · rw [h]; exact .refl s
  · rw [h]; exact keeps_setPort s p _ id
  · rw [h]; exact (Keeps.refl s).close ..

/-- A request keeps what its owner's meaning keeps, taken or turned away. -/
theorem keeps_take (s : State) (p : Port) (tag : Byte) (c : Instr) (owner : State → State)
    (h : ∀ t, Keeps t (owner t)) : Keeps s (s.take p tag c owner) := by
  unfold State.take
  split
  · exact (keeps_arrive s p c).trans (h _)
  · exact keeps_turnAway s p tag c

/-- A request before which its owner takes what stands. -/
theorem keeps_take_after (s : State) (p : Port) (tag : Byte) (c : Instr) {ready owner : State → State}
    (before : ∀ t, Keeps t (ready t)) (h : ∀ t, Keeps t (owner t)) :
    Keeps s (s.take p tag c (fun t => owner (ready t))) :=
  keeps_take s p tag c _ fun t => (before t).trans (h _)

end Sys2Proof.Proofs
end

section
namespace Sys2Proof.Proofs
open Sys2Proof.Machine

/-! ## The mark table and the zone table -/

@[simp] theorem keeps_reevaluateMarks (s : State) : Keeps s (reevaluateMarks s) := by
  simp only [reevaluateMarks]
  split <;> simp

theorem keeps_takeChangeReport (s : State) : Keeps s (takeChangeReport s) := by
  unfold takeChangeReport
  split
  · exact .refl s
  · exact (keeps_mk s ..).trans (keeps_reevaluateMarks _)

theorem keeps_settleMarks (s : State) : Keeps s (settleMarks s) :=
  keeps_foldl _ (fun t _ => keeps_takeChangeReport t) _ s

theorem keeps_storeMark (s : State) (p : Port) (tag : Byte) (n : Nat) (x : Vec3) (cap : Nat) (label : List Byte) :
    Keeps s (storeMark s p tag n x cap label) := by
  simp only [storeMark]
  (repeat' split) <;> simp

theorem keeps_markSet (p : Port) (tag : Byte) (b : MarkSetBody) (s : State) : Keeps s (markSet p tag b s) := by
  simp only [markSet]
  (repeat' split) <;> simp [keeps_storeMark]

theorem keeps_markHere (p : Port) (tag : Byte) (b : MarkHereBody) (s : State) : Keeps s (markHere p tag b s) := by
  simp only [markHere]
  (repeat' split) <;> simp [keeps_storeMark]

theorem keeps_markRetire (p : Port) (tag : Byte) (n : Nat) (s : State) : Keeps s (markRetire p tag n s) := by
  simp only [markRetire]
  (repeat' split) <;> simp

theorem keeps_markRead (p : Port) (tag : Byte) (n : Nat) (s : State) : Keeps s (markRead p tag n s) := by
  simp only [markRead]
  (repeat' split) <;> simp

theorem keeps_markList (p : Port) (tag : Byte) (n : Nat) (s : State) : Keeps s (markList p tag n s) := by
  simp only [markList]
  split <;> simp

@[simp] theorem Keeps.applyZoneWork {s t : State} (h : Keeps s t) (w : ZoneWork) : Keeps s (t.applyZoneWork w) := by
  refine h.trans ?_
  simp [State.applyZoneWork]

theorem keeps_takeZoneResult (s : State) : Keeps s (takeZoneResult s) := by
  simp only [takeZoneResult]
  (repeat' split) <;> simp

theorem keeps_zoneReady (s : State) : Keeps s (zoneReady s) :=
  ((keeps_settleMarks s).trans (keeps_takeZoneResult _)).trans (keeps_settleMarks _)

theorem keeps_zoneLapse (n : Nat) (s : State) : Keeps s (zoneLapse n s) := by
  simp only [zoneLapse]
  (repeat' split) <;> simp

theorem keeps_admitZone (p : Port) (tag : Byte) (margin : Nat) (z : Zone) (s : State) :
    Keeps s (admitZone p tag margin z s) := by
  simp only [admitZone]
  (repeat' split) <;> simp

theorem keeps_zoneAdd (p : Port) (tag : Byte) (b : ZoneAddBody) (s : State) : Keeps s (zoneAdd p tag b s) := by
  simp only [zoneAdd]
  (repeat' split) <;> simp [keeps_admitZone]

theorem keeps_admitEdit (p : Port) (tag : Byte) (margin : Nat) (old z : Zone) (s : State) :
    Keeps s (admitEdit p tag margin old z s) := by
  simp only [admitEdit]
  (repeat' split) <;> simp

theorem keeps_zoneEdit (p : Port) (tag : Byte) (b : ZoneEditBody) (s : State) : Keeps s (zoneEdit p tag b s) := by
  simp only [zoneEdit]
  (repeat' split) <;> simp [keeps_admitEdit]

theorem keeps_zoneRetire (p : Port) (tag : Byte) (n : Nat) (s : State) : Keeps s (zoneRetire p tag n s) := by
  simp only [zoneRetire]
  (repeat' split) <;> simp

@[simp] theorem keeps_relock (p : Port) (tag : Byte) (z : Zone) (lock : ZoneLock) (reason : ZoneReason) (s : State) :
    Keeps s (relock p tag z lock reason s) := by
  simp [relock]

theorem keeps_zoneLock (p : Port) (tag : Byte) (n : Nat) (s : State) : Keeps s (zoneLock p tag n s) := by
  simp only [zoneLock]
  (repeat' split) <;> simp

theorem keeps_zoneUnlock (p : Port) (tag : Byte) (n : Nat) (s : State) : Keeps s (zoneUnlock p tag n s) := by
  simp only [zoneUnlock]
  (repeat' split) <;> simp

theorem keeps_zoneFix (p : Port) (tag : Byte) (n : Nat) (s : State) : Keeps s (zoneFix p tag n s) := by
  simp only [zoneFix]
  (repeat' split) <;> simp

theorem keeps_zoneRead (p : Port) (tag : Byte) (n : Nat) (s : State) : Keeps s (zoneRead p tag n s) := by
  simp only [zoneRead]
  split <;> simp

theorem keeps_zoneList (p : Port) (tag : Byte) (filter code : Nat) (s : State) :
    Keeps s (zoneList p tag filter code s) := by
  simp only [zoneList]
  split <;> simp

end Sys2Proof.Proofs
end

section
namespace Sys2Proof.Proofs
open Sys2Proof.Machine

/-! ## The work of one queue event (R75 to R79) -/

/-- The entries that the work has so far are in range. -/
def Calm (w : QueueWork) : Prop := stallsInRange w.q.entries

theorem stallsInRange_cons (e : Entry) (rest : List Entry) :
    stallsInRange (e :: rest) ↔ e.stall < 250 ∧ stallsInRange rest := List.forall_mem_cons

theorem calm_withEntries (w : QueueWork) (es : List Entry) : Calm (w.withEntries es) ↔ stallsInRange es := Iff.rfl

theorem Calm.ends {w : QueueWork} (h : Calm w) (r : Option EndReason) : Calm { w with ends := r } := h

theorem Calm.remove {w : QueueWork} (h : Calm w) (e : Entry) (reason : MoveReason) (failure : Option Failure) :
    Calm (w.remove e reason failure) := fun x mem => h x (List.mem_of_mem_filter mem)

/-- The head and the rest of calm work. -/
theorem Calm.cons {w : QueueWork} (h : Calm w) {e : Entry} {rest : List Entry} (es : w.q.entries = e :: rest) :
    e.stall < 250 ∧ stallsInRange rest := by
  rwa [Calm, es, stallsInRange_cons] at h

theorem Calm.of_cons {w : QueueWork} {e : Entry} {rest : List Entry} (es : w.q.entries = e :: rest)
    (first : e.stall < 250) (others : stallsInRange rest) : Calm w := by
  rw [Calm, es, stallsInRange_cons]
  exact ⟨first, others⟩

/-- Entries changed in ways that leave their stall counts are as calm as before. -/
theorem stallsInRange_map (f : Entry → Entry) (same : ∀ e, (f e).stall = e.stall) {es : List Entry}
    (h : stallsInRange es) : stallsInRange (es.map f) := fun x mem => by
  obtain ⟨e, he, rfl⟩ := List.mem_map.1 mem
  rw [same]
  exact h e he

theorem Calm.formLookAhead {w : QueueWork} (h : Calm w) (s : State) : Calm (formLookAhead s w) := by
  unfold Machine.formLookAhead
  split
  next head e rest es =>
    obtain ⟨first, others⟩ := h.cons es
    obtain ⟨second, more⟩ := (stallsInRange_cons _ _).1 others
    have formed : ∀ look, stallsInRange (head :: { e with lookAhead := look } :: rest) := fun look =>
      (stallsInRange_cons _ _).2 ⟨first, (stallsInRange_cons _ _).2 ⟨second, more⟩⟩
    split
    · dsimp only
      split <;> exact formed _
    · exact h
  next => exact h

theorem Calm.uncheckHead {w : QueueWork} (h : Calm w) : Calm (uncheckHead w) := by
  unfold Machine.uncheckHead
  split
  next => exact h
  next e rest es => exact .of_cons rfl (h.cons es).1 (h.cons es).2

theorem Calm.startHead {w : QueueWork} (h : Calm w) (s : State) : Calm (startHead s w) := by
  unfold Machine.startHead
  split
  next => exact h
  next e rest es =>
    split
    · exact (h.remove _ _ _).ends _
    · split
      · exact (h.remove _ _ _).ends _
      · refine Calm.formLookAhead ?_ s
        exact .of_cons rfl (Nat.zero_lt_succ _) (h.cons es).2

theorem Calm.becomeHead {w : QueueWork} (h : Calm w) (s : State) : Calm (becomeHead s w) := by
  unfold Machine.becomeHead
  have unchecked := h.uncheckHead
  dsimp only
  split
  · split
    next => exact unchecked
    next e rest es =>
      split
      · exact unchecked.startHead s
      · exact .of_cons rfl (unchecked.cons es).1 (unchecked.cons es).2
  · exact unchecked

theorem Calm.completeHead {w : QueueWork} (h : Calm w) (s : State) (e : Entry) : Calm (completeHead s w e) :=
  (h.remove _ _ _).becomeHead s

theorem Calm.retireInQueue {w : QueueWork} (h : Calm w) (s : State) (n : Nat) : Calm (retireInQueue s n w) := by
  have removed : ∀ (es : List Entry) (w : QueueWork), Calm w →
      Calm (es.foldl (fun w e => w.remove e .dropped (some .markRetired)) w) := fun es => by
    induction es with
    | nil => exact fun w h => h
    | cons e rest ih => exact fun w h => ih _ (h.remove _ _ _)
  have marked : ∀ w : QueueWork, Calm w →
      Calm (w.withEntries (w.q.entries.map (fun e => if e.targets n then { e with markRetired := true } else e))) :=
    fun w h => stallsInRange_map _ (fun e => by split <;> rfl) h
  have retired := marked _ (removed (w.q.entries.filter fun e => e.targets n && !e.leads) w h)
  have looked : ∀ (b : Bool) (w : QueueWork), Calm w → Calm (if b then Machine.formLookAhead s w else w) := fun b w h => by
    cases b with
    | true => exact h.formLookAhead s
    | false => exact h
  unfold Machine.retireInQueue
  dsimp only
  split
  · exact looked _ _ retired
  · split
    · exact (looked _ _ retired).ends _
    · exact looked _ _ retired

theorem Calm.reportInQueue {w : QueueWork} (h : Calm w) (s : State) (r : MarkReport) : Calm (reportInQueue s r w) := by
  cases r with
  | retired n => exact h.retireInQueue s n
  | replaced n =>
    simp only [Machine.reportInQueue]
    split
    · exact h.formLookAhead s
    · exact h
  | changed ms =>
    simp only [Machine.reportInQueue]
    split
    · exact h.formLookAhead s
    · exact h

theorem Calm.endHead {w : QueueWork} (h : Calm w) : Calm (endHead w) := by
  unfold Machine.endHead
  split
  next => exact h
  next e rest es =>
    obtain ⟨first, others⟩ := h.cons es
    split
    · exact h
    · exact .of_cons rfl first others
    · split
      · exact h.remove _ _ _
      · exact .of_cons rfl (Nat.zero_lt_succ _) others
    · exact h.remove _ _ _

section Head

variable {w : QueueWork} (s : State) (e : Entry) (rest : List Entry) (first : e.stall < 250) (others : stallsInRange rest)
include first others

theorem calm_arriveHead : Calm (arriveHead s w e rest) := by
  unfold arriveHead
  dsimp only
  split
  · refine Calm.completeHead ?_ s _
    exact .of_cons rfl first others
  · exact .of_cons rfl (Nat.zero_lt_succ _) others

/-- R79: the count that reaches 250 leaves the queue with its entry. -/
theorem calm_stallHead (h : Calm w) (r : StepResult) : Calm (stallHead w e rest r) := by
  unfold stallHead
  split
  · dsimp only
    split
    next => exact ((h.remove _ _ _).uncheckHead).ends _
    next below => exact .of_cons rfl (Nat.lt_of_le_of_ne first below) others
  · exact .of_cons rfl (Nat.zero_lt_succ _) others

theorem calm_dwellHead : Calm (dwellHead s w e rest) := by
  unfold dwellHead
  dsimp only
  split
  · refine Calm.completeHead ?_ s _
    exact .of_cons rfl first others
  · exact .of_cons rfl first others

end Head

theorem Calm.stepHead {w : QueueWork} (h : Calm w) (s : State) (r : StepResult) : Calm (stepHead s r w) := by
  unfold Machine.stepHead
  split
  next => exact h
  next e rest es =>
    obtain ⟨first, others⟩ := h.cons es
    split
    · exact h
    · exact h
    · split
      · exact calm_arriveHead s e rest first others
      · exact calm_stallHead e rest first others h r
    · exact calm_dwellHead s e rest first others

theorem Calm.cancelEntry {w : QueueWork} (h : Calm w) (s : State) (position : Nat) (e : Entry) :
    Calm (cancelEntry s w position e) := by
  have removed : Calm (w.remove e .cancelled none) := h.remove _ _ _
  unfold Machine.cancelEntry
  dsimp only
  split
  · exact removed.uncheckHead.ends _
  · exact removed.becomeHead s
  · exact removed.becomeHead s
  · split
    · exact removed.formLookAhead s
    · exact removed.uncheckHead

/-! ## The move queue -/

theorem Keeps.handEnd {s t : State} (h : Keeps s t) (reason : EndReason) : Keeps s (t.handEnd reason) :=
  (h.trans (keeps_queue t { t.queue with travelFlag := false } id)).hands _

/-- The work of one event is applied with its notices and the end travel that it hands. -/
theorem Keeps.applyQueueWork {s t : State} (h : Keeps s t) (w : QueueWork)
    (calm : stallsInRange t.queue.entries → Calm w) : Keeps s (t.applyQueueWork w) := by
  have told : Keeps s (({ t with queue := w.q } : State).notifyAll (w.news.filterMap w.notice)) := by
    rw [notifyAll_told]
    exact (h.trans (keeps_queue t w.q calm)).told _
  unfold State.applyQueueWork
  dsimp only
  split
  · exact told
  · exact told.handEnd _

theorem keeps_takeMarkReport (s : State) : Keeps s (takeMarkReport s) := by
  unfold takeMarkReport
  split
  · exact .refl s
  · exact (keeps_mk s ..).applyQueueWork _ fun h => Calm.reportInQueue (w := QueueWork.start _) h _ _

theorem keeps_queueReady (s : State) : Keeps s (queueReady s) :=
  (keeps_settleMarks s).trans (keeps_foldl _ (fun t _ => keeps_takeMarkReport t) _ _)

theorem keeps_travelBegun (n : Nat) (s : State) : Keeps s (travelBegun n s) :=
  (Keeps.refl s).applyQueueWork _ fun h => by
    refine Calm.becomeHead ?_ s
    exact h

theorem keeps_travelEnded (s : State) : Keeps s (travelEnded s) :=
  (Keeps.refl s).applyQueueWork _ fun h => by
    rw [calm_withEntries]
    refine stallsInRange_map _ (fun _ => ?_) (Calm.endHead ?_)
    · rfl
    · exact h

theorem keeps_cueEdge (s : State) : Keeps s (cueEdge s) := by
  unfold cueEdge
  split
  · exact .refl s
  · split
    · exact (Keeps.refl s).applyQueueWork _ fun h => Calm.startHead (w := .start s) h s
    · exact .refl s

theorem keeps_takeQueueResult (s : State) : Keeps s (takeQueueResult s) := by
  unfold takeQueueResult
  split
  · exact .refl s
  · have ready := (keeps_mk s ..).trans (keeps_queueReady { s with hands := { s.hands with stepQueue := none } })
    dsimp only
    split
    · exact ready.applyQueueWork _ fun h => Calm.stepHead (w := .start _) h _ _
    · exact ready

theorem keeps_dwellEnd (s : State) : Keeps s (dwellEnd s) := by
  unfold dwellEnd
  split
  · exact .refl s
  · split
    · exact (Keeps.refl s).applyQueueWork _ fun h => Calm.completeHead (w := .start s) h s _
    · exact .refl s

theorem keeps_admitMove (p : Port) (tag : Byte) (clamps : Nat) (e : Entry) (s : State) (calm : e.stall < 250) :
    Keeps s (admitMove p tag clamps e s) := by
  simp only [admitMove, notify_told]
  refine ((keeps_queue s _ fun h => ?_).told _).closeItem ..
  exact List.forall_mem_append.2 ⟨h, by simpa using calm⟩

theorem keeps_moveAdd (p : Port) (tag : Byte) (b : MoveAddBody) (s : State) : Keeps s (moveAdd p tag b s) := by
  have admitted : ∀ clamps target release to_, Keeps s (admitMove p tag clamps (newEntry s b target release to_) s) :=
    fun _ _ _ _ => keeps_admitMove p tag _ _ s (by simp [newEntry])
  simp only [moveAdd]
  (repeat' split) <;> simp [admitted]

theorem keeps_moveCancel (p : Port) (tag : Byte) (id : Nat) (s : State) : Keeps s (moveCancel p tag id s) := by
  unfold moveCancel
  split
  · simp
  · split
    · simp
    · exact ((Keeps.refl s).applyQueueWork _ fun h => Calm.cancelEntry (w := .start s) h s _ _).close ..

theorem keeps_queueClear (p : Port) (tag : Byte) (s : State) : Keeps s (queueClear p tag s) := by
  have emptied : Keeps s { s with queue := { s.queue with entries := [] } } :=
    keeps_queue s _ fun _ => by simp [stallsInRange]
  simp only [queueClear, notify_told]
  split
  · simp
  · split
    · exact ((emptied.told _).handEnd _).close ..
    · exact (emptied.told _).close ..

end Sys2Proof.Proofs
end

section
namespace Sys2Proof.Proofs
open Sys2Proof.Machine

/-! ## What a change of mode leaves in carrier control's record (R89) -/

section ToMode

variable (c : Carrier) (m : Mode)

@[simp] theorem toMode_mode : (c.toMode m).mode = m := by
  simp only [Carrier.toMode]; (repeat' split) <;> rfl

@[simp] theorem toMode_causes : (c.toMode m).causes = c.causes := by
  simp only [Carrier.toMode]; (repeat' split) <;> rfl

@[simp] theorem toMode_first : (c.toMode m).first = c.first := by
  simp only [Carrier.toMode]; (repeat' split) <;> rfl

@[simp] theorem toMode_poseLost : (c.toMode m).poseLost = c.poseLost := by
  simp only [Carrier.toMode]; (repeat' split) <;> rfl

@[simp] theorem toMode_steerAge : (c.toMode m).steerAge = c.steerAge := by
  simp only [Carrier.toMode]; (repeat' split) <;> rfl

@[simp] theorem toMode_windMirror : (c.toMode m).windMirror = c.windMirror := by
  simp only [Carrier.toMode]; (repeat' split) <;> rfl

theorem toMode_stickOwned : (c.toMode m).stickOwned = true ↔ m = .steer := by
  by_cases new : m = .steer
  · simp [Carrier.toMode, new]
  · by_cases old : c.mode = .steer <;> simp [Carrier.toMode, new, old]

theorem toMode_steer (zero : c.mode ≠ .steer → c.steer = Vec.zero) (new : m ≠ .steer) : (c.toMode m).steer = Vec.zero := by
  by_cases old : c.mode = .steer
  · simp [Carrier.toMode, new, old]
  · simp [Carrier.toMode, new, old, zero old]

end ToMode

/-! ## The ways in which carrier control's record changes -/

section Carrier

variable {s : State}

/-- R89: a change of mode that enters and leaves no halt, with the mirror of the wind hold as it is taken then. -/
theorem keeps_toMode (m : Mode) (mirror : Bool) (halted : m.isHalted = s.carrier.mode.isHalted)
    (held : s.carrier.mode ≠ .halted .stopped) (calm : mirror = true → m ≠ .steer ∧ m ≠ .travel) (h : Hands) :
    Keeps s { s with carrier := { s.carrier with windMirror := mirror }.toMode m, hands := h } := by
  refine .of_carrier (fun ⟨_, zero⟩ => ?_) (fun ⟨causes, first, nodup, lost⟩ => ?_) (fun _ => ?_) (fun age => ?_)
  · exact ⟨by simp [toMode_stickOwned], fun new => toMode_steer _ _ zero (by simpa using new)⟩
  · refine ⟨by simpa [halted] using causes, by simpa using first, by simpa using nodup, fun l => ?_⟩
    exact absurd (lost (by simpa using l)) held
  · exact fun set => by simpa using calm (by simpa using set)
  · simpa using age

/-- R99: a cause joins the set, and a halt stands after it. -/
theorem keeps_joined (r : Report) (m : Mode) (owned : Bool) (v : Vec3) (lost : Bool) (h : Hands)
    (fresh : r.cause ∉ s.carrier.causes) (halted : m.isHalted = true)
    (stick : s.stickAgrees → owned = false ∧ v = Vec.zero)
    (pose : s.haltAgrees → lost = true → m = .halted .stopped) :
    Keeps s { s with
      carrier := { Carrier.joined s.carrier r with mode := m, stickOwned := owned, steer := v, poseLost := lost }
      hands := h } := by
  have grounded : m ≠ .steer ∧ m ≠ .travel :=
    ⟨fun mode => by simp [mode, Mode.isHalted] at halted, fun mode => by simp [mode, Mode.isHalted] at halted⟩
  refine .of_carrier (fun agrees => ?_) (fun agrees => ?_) (fun _ _ => grounded) id
  · obtain ⟨free, zero⟩ := stick agrees
    exact ⟨by simp [free, grounded.1], fun _ => zero⟩
  · have ⟨_, first, nodup, _⟩ := agrees
    refine ⟨by simp [halted, Carrier.joined], ?_, ?_, pose agrees⟩
    · by_cases none_ : s.carrier.causes = []
      · simp [Carrier.joined, none_]
      · simpa [Carrier.joined, none_] using first
    · simpa [Carrier.joined, List.nodup_append] using ⟨nodup, fun a mem same => fresh (same ▸ mem)⟩

/-- A record without causes, in no halt and neither STEER nor TRAVEL, its stick free. -/
theorem keeps_cleared (k : Carrier) (mode : k.mode = .hold ∨ k.mode = .offline) (causes : k.causes = [])
    (first : k.first = none) (free : k.stickOwned = false) (zero : s.stickAgrees → k.steer = Vec.zero)
    (held : k.poseLost = false) (age : s.carrier.steerAge ≤ 50 → k.steerAge ≤ 50) (h : Hands) :
    Keeps s { s with carrier := k, hands := h } := by
  have calm : k.mode.isHalted = false ∧ k.mode ≠ .steer ∧ k.mode ≠ .travel := by
    obtain mode | mode := mode <;> simp [mode, Mode.isHalted]
  obtain ⟨halted, grounded⟩ := calm
  exact .of_carrier (fun agrees => ⟨by simp [free, grounded.1], fun _ => zero agrees⟩)
    (fun _ => ⟨by simp [halted, causes], by simp [first, causes], by simp [causes], by simp [held]⟩) (fun _ _ => grounded) age

end Carrier

/-! ## Carrier control: reports and hand-offs -/

/-- R99 to R105: in each way of taking a report a halt stands after it, and its cause has joined the set. -/
theorem keeps_raiseCause (r : Report) (s : State) : Keeps s (raiseCause r s) := by
  by_cases ignored : s.carrier.mode = .offline ∨ r.cause ∈ s.carrier.causes
  · rw [raiseCause_ignored r s ignored]
    exact .refl s
  obtain ⟨rigged, fresh⟩ := not_or.1 ignored
  have free : s.carrier.mode ≠ .steer → s.stickAgrees → s.carrier.stickOwned = false ∧ s.carrier.steer = Vec.zero :=
    fun other ⟨owned, zero⟩ => ⟨by simpa [other] using owned, zero other⟩
  have zeroed : s.stickAgrees → (if s.carrier.mode = .steer then (⟨0, 0, 0⟩ : Vec3) else s.carrier.steer) = Vec.zero :=
    fun ⟨_, zero⟩ => by
      split
      · rfl
      · exact zero ‹_›
  have lost : s.haltAgrees → s.carrier.poseLost = true → s.carrier.mode = .halted .stopped := fun ⟨_, _, _, h⟩ => h
  cases urgent : r.cause.immediate with
  | false =>
    by_cases halted : s.carrier.mode.isHalted = true
    · have other : s.carrier.mode ≠ .steer := fun mode => by simp [mode, Mode.isHalted] at halted
      rw [raiseCause_joins r s fresh halted urgent]
      exact (keeps_joined r s.carrier.mode _ _ s.carrier.poseLost s.hands fresh halted (free other) lost).told _
    · have flies : s.haltAgrees → s.carrier.poseLost = true → False := fun agrees l => halted (by rw [lost agrees l]; rfl)
      by_cases parked : s.carrier.mode = .parked
      · rw [raiseCause_parked r s fresh parked urgent]
        exact (keeps_joined r _ _ s.carrier.steer s.carrier.poseLost _ fresh rfl
          (fun agrees => ⟨rfl, (free (by simp [parked]) agrees).2⟩) fun _ _ => rfl).told _
      · have mode : s.carrier.mode = .hold ∨ s.carrier.mode = .steer ∨ s.carrier.mode = .travel := by
          revert rigged halted parked
          rcases s.carrier.mode with _ | _ | _ | _ | _ | _ <;> simp [Mode.isHalted]
        rw [raiseCause_stops r s fresh mode urgent]
        exact (keeps_joined r _ _ _ s.carrier.poseLost _ fresh rfl (fun agrees => ⟨rfl, zeroed agrees⟩)
          fun agrees l => (flies agrees l).elim).told _
  | true =>
    by_cases stopped : s.carrier.mode = .halted .stopped
    · have other : s.carrier.mode ≠ .steer := by simp [stopped]
      have halted : s.carrier.mode.isHalted = true := by rw [stopped]; rfl
      by_cases loses : r.cause = .tracking ∧ s.carrier.poseLost = false
      · rw [raiseCause_tracking r s fresh stopped loses.1 loses.2]
        exact (keeps_joined r s.carrier.mode _ _ true _ fresh halted (free other) fun _ _ => stopped).told _
      · rw [raiseCause_again r s fresh stopped urgent (by simpa [or_iff_not_imp_left] using loses)]
        exact (keeps_joined r s.carrier.mode _ _ s.carrier.poseLost _ fresh halted (free other) fun _ _ => stopped).told _
    · rw [raiseCause_immediate r s fresh rigged stopped urgent]
      exact (keeps_joined r _ _ _ true _ fresh rfl (fun agrees => ⟨rfl, zeroed agrees⟩) fun _ _ => rfl).told _

/-- A change of mode that enters and leaves no halt, with its notice. -/
theorem keeps_changeMode (s : State) (m : Mode) (reason : ModeReason) (q : Option EndReason)
    (halted : m.isHalted = s.carrier.mode.isHalted) (held : s.carrier.mode ≠ .halted .stopped)
    (calm : s.carrier.windMirror = true → m ≠ .steer ∧ m ≠ .travel) : Keeps s (s.changeMode m reason q) := by
  rw [changeMode_told]
  exact (keeps_toMode m s.carrier.windMirror halted held calm s.hands).told _

/-- R90, R103: a controlled stop that ends at rest stays a halt. -/
theorem keeps_carrierStep (r : StepResult) (s : State) : Keeps s (carrierStep r s) := by
  have stored : Keeps s { s with carrier := { s.carrier with
      lastAtRest := r.atRest, steerAge := min (s.carrier.steerAge + 1) 50 } } :=
    .of_carrier id id id fun _ => min_le_right ..
  unfold carrierStep
  dsimp only
  split
  next stops =>
    have mode : s.carrier.mode = .halted .stopping := by simpa using (Bool.and_eq_true_iff.1 stops).1
    exact (stored.hands _).trans
      (keeps_changeMode _ (.halted .stopped) .stopped none (by simp [mode, Mode.isHalted]) (by simp [mode]) (by simp))
  next => exact stored

theorem keeps_takeCarrierResult (s : State) : Keeps s (takeCarrierResult s) := by
  unfold takeCarrierResult
  split
  · exact .refl s
  · dsimp only
    split
    · exact (keeps_mk s ..).trans (keeps_carrierStep _ _)
    · exact keeps_mk s ..

theorem keeps_carrierReady (s : State) : Keeps s (carrierReady s) := by
  unfold carrierReady
  split
  · exact .refl s
  · exact .refl s
  all_goals exact keeps_takeCarrierResult s

theorem keeps_estopActive (level : Bool) (s : State) : Keeps s (estopActive level s) := by
  simp only [estopActive]
  split
  · exact (keeps_mk s ..).trans ((keeps_carrierReady _).trans (keeps_raiseCause _ _))
  · exact keeps_mk s ..

theorem keeps_halt (p : Port) (tag : Byte) (s : State) : Keeps s (Machine.halt p tag s) := by
  unfold Machine.halt
  split
  · exact (Keeps.refl s).close ..
  · exact ((Keeps.refl s).close ..).trans (keeps_raiseCause _ _)

theorem keeps_endTravel (h : EndHand) (s : State) : Keeps s (endTravel h s) := by
  unfold endTravel
  split
  next acts =>
    have mode : s.carrier.mode = .travel := by simpa using (Bool.and_eq_true_iff.1 acts).2
    exact keeps_changeMode s .hold _ _ (by simp [mode, Mode.isHalted]) (by simp [mode]) (by simp)
  next => exact .refl s

/-- R98: a wind hold that is set leaves STEER and TRAVEL. -/
theorem keeps_windHoldChange (hold : Bool) (s : State) : Keeps s (windHoldChange hold s) := by
  have grounded : s.carrier.mode.isHalted = false →
      Keeps s (State.changeMode { s with carrier := { s.carrier with windMirror := hold } } .hold .wind) := fun flies => by
    rw [changeMode_told]
    exact (keeps_toMode .hold hold flies.symm (fun h => by simp [h, Mode.isHalted] at flies) (by simp) s.hands).told _
  unfold windHoldChange
  dsimp only
  split
  · exact .refl s
  · split
    · split
      next steer => exact grounded (by rw [steer]; rfl)
      next travel => exact (grounded (by rw [travel]; rfl)).hands _
      next steer travel => exact .of_carrier id id (fun _ _ => ⟨steer, travel⟩) id
    next clear => exact .of_carrier id id (fun _ set => absurd set clear) id

/-! ## Carrier control: requests -/

theorem close_carrier (s : State) (p : Port) (tag : Byte) (st : Status) (d1 d2 : Nat) :
    (s.close p tag st d1 d2).carrier = s.carrier := by
  simp [State.close, State.answer]

/-- R89: a request accepted in a mode that is no halt, which it changes for another. -/
theorem keeps_accepted (s : State) (p : Port) (tag : Byte) (m : Mode) (reason : ModeReason)
    (old : s.carrier.mode.isHalted = false) (new : m.isHalted = false)
    (calm : s.carrier.windMirror = true → m ≠ .steer ∧ m ≠ .travel) :
    Keeps s ((s.close p tag .ok 0 0).changeMode m reason) := by
  refine ((Keeps.refl s).close ..).trans (keeps_changeMode _ m reason none ?_ (fun stopped => ?_) ?_)
  · rw [close_carrier, old, new]
  · rw [close_carrier] at stopped
    simp [stopped, Mode.isHalted] at old
  · rwa [close_carrier]

/-- A request that has passed the test of its mode finds no halt. -/
theorem flies_of_mode {mode m : Mode} (h : ¬mode ≠ m) (flies : m.isHalted = false) : mode.isHalted = false := by
  rwa [not_not.1 h]

theorem keeps_run (p : Port) (tag : Byte) (s : State) : Keeps s (Machine.run p tag s) := by
  simp only [Machine.run]
  split
  · simp
  split
  · simp
  next mode =>
    split
    · simp
    split
    · simp
    next calm =>
      split
      · simp
      · have counted : Keeps s { s with carrier := { s.carrier with begun := s.carrier.begun + 1 } } :=
          .of_carrier id id id id
        exact (counted.trans (keeps_accepted _ p tag .travel .run (flies_of_mode mode rfl) rfl
          fun set => absurd set calm)).hands _

theorem keeps_stop (p : Port) (tag : Byte) (s : State) : Keeps s (Machine.stop p tag s) := by
  unfold Machine.stop
  split
  next mode => exact (keeps_accepted s p tag .hold .stop (by simp [mode, Mode.isHalted]) rfl (by simp)).hands _
  next mode => exact keeps_accepted s p tag .hold .stop (by simp [mode, Mode.isHalted]) rfl (by simp)
  next => simp

theorem keeps_takeStick (p : Port) (tag : Byte) (s : State) : Keeps s (Machine.takeStick p tag s) := by
  simp only [Machine.takeStick]
  split
  · simp
  split
  · simp
  next mode =>
    split
    · simp
    next calm =>
      split
      · simp
      · have zeroed : Keeps s { s with carrier := { s.carrier with steer := Vec.zero, steerAge := 50 } } :=
          .of_carrier (fun ⟨owned, _⟩ => ⟨owned, fun _ => rfl⟩) id id fun _ => le_rfl
        exact zeroed.trans (keeps_accepted _ p tag .steer .stickTaken (flies_of_mode mode rfl) rfl
          fun set => absurd set calm)

theorem keeps_steer (p : Port) (tag : Byte) (v : Vec3) (s : State) : Keeps s (Machine.steer p tag v s) := by
  unfold Machine.steer
  split
  · simp
  split
  · simp
  next mode =>
    exact .of_carrier (fun ⟨owned, _⟩ => ⟨owned, fun other => absurd (by simpa using mode) other⟩) id id fun _ => Nat.zero_le _

theorem keeps_releaseStick (p : Port) (tag : Byte) (s : State) : Keeps s (Machine.releaseStick p tag s) := by
  unfold Machine.releaseStick
  split
  · simp
  split
  · simp
  next mode => exact keeps_accepted s p tag .hold .stickReleased (flies_of_mode mode rfl) rfl (by simp)

theorem keeps_park (p : Port) (tag : Byte) (s : State) : Keeps s (Machine.park p tag s) := by
  unfold Machine.park
  split
  · simp
  next mode =>
    split
    · simp
    · exact keeps_accepted s p tag .parked .park (flies_of_mode mode rfl) rfl (by simp)

theorem keeps_unpark (p : Port) (tag : Byte) (s : State) : Keeps s (Machine.unpark p tag s) := by
  unfold Machine.unpark
  split
  · simp
  next mode => exact keeps_accepted s p tag .hold .unpark (flies_of_mode mode rfl) rfl (by simp)

/-- R109: with the set empty the halt is left, and the pose was held. -/
theorem keeps_acceptClear (p : Port) (tag : Byte) (s : State) (held : s.carrier.poseLost = false) :
    Keeps s (acceptClear p tag s) := by
  have cleared : Keeps s { s with carrier := { s.carrier.toMode .hold with causes := [], first := none } } :=
    keeps_cleared _ (.inl (by simp)) rfl rfl (by simp [Bool.eq_false_iff, toMode_stickOwned])
      (fun ⟨_, zero⟩ => toMode_steer _ _ zero (by simp)) (by simpa using held) (by simp) s.hands
  simp only [acceptClear, notify_told, modeNotice_told]
  exact ((cleared.close ..).told _).told _

theorem keeps_clearHalt (p : Port) (tag : Byte) (s : State) : Keeps s (Machine.clearHalt p tag s) := by
  unfold Machine.clearHalt
  split
  · simp
  split
  · simp
  split
  · simp
  next held =>
    split
    · simp
    split
    · simp
    · exact keeps_acceptClear p tag s (by simpa using held)

end Sys2Proof.Proofs
end

section
namespace Sys2Proof.Proofs
open Sys2Proof.Machine

/-! ## Drum counters (R146 to R149) -/

theorem drum_inRange_iff (d : Drum) : d.inRange = true ↔ d.illegal ≤ 255 ∧ d.exceed ≤ 3 := by
  simp [Drum.inRange]

theorem drumsInRange_set {drums : Quad Drum} (h : drumsInRange drums) (w : Winch) (d : Drum)
    (new : (drums.get w).inRange = true → d.inRange = true) : drumsInRange (drums.set w d) := fun v => by
  rw [quad_get_set]
  split
  · exact new (h w)
  · exact h v

theorem drumsInRange_map {drums : Quad Drum} (h : drumsInRange drums) (f : Drum → Drum)
    (new : ∀ d, d.inRange = true → (f d).inRange = true) : drumsInRange (drums.map f) := fun v => by
  rw [quad_get_map]
  exact new _ (h v)

theorem turn_inRange (d : Drum) (levels : Levels) (h : d.inRange = true) : (d.turn levels).inRange = true := by
  rw [drum_inRange_iff] at *
  unfold Drum.turn
  split
  · exact h
  · exact h
  · exact h
  · exact ⟨min_le_right .., h.2⟩

theorem trackDrum_inRange (tolerance scale commanded : Int) (d : Drum) (h : d.inRange = true) :
    (trackDrum tolerance scale commanded d).inRange = true := by
  rw [drum_inRange_iff] at *
  unfold trackDrum
  split
  · exact h
  · split
    · exact ⟨h.1, min_le_right ..⟩
    · exact ⟨h.1, Nat.zero_le _⟩

theorem keeps_encoderTransition (w : Winch) (levels : Levels) (s : State) : Keeps s (encoderTransition w levels s) := by
  have turned := keeps_drums s (s.drums.set w ((s.drums.get w).turn levels)) fun h =>
    drumsInRange_set h w _ (turn_inRange _ levels)
  unfold encoderTransition
  dsimp only
  split
  · exact turned.hands _
  · exact turned

theorem keeps_trackWinch (lengths : Quad Int) (s : State) (w : Winch) : Keeps s (trackWinch lengths s w) := by
  have tracked := keeps_drums s (s.drums.set w (trackDrum s.settings.trackTol (s.settings.drumScale.get w) (lengths.get w)
    (s.drums.get w))) fun h => drumsInRange_set h w _ (trackDrum_inRange _ _ _ _)
  unfold trackWinch
  dsimp only
  split
  · exact tracked.hands _
  · exact tracked

theorem keeps_drumStep (s : State) : Keeps s (drumStep s) := by
  unfold drumStep
  split
  · exact keeps_drums s _ fun h => drumsInRange_map h _ fun d hd =>
      (drum_inRange_iff _).2 ⟨((drum_inRange_iff d).1 hd).1, Nat.zero_le _⟩
  · split
    · exact .refl s
    · exact keeps_foldl _ (fun t w => keeps_trackWinch _ t w) _ s

theorem keeps_takeDrumResult (s : State) : Keeps s (takeDrumResult s) := by
  unfold takeDrumResult
  split
  · exact .refl s
  · dsimp only
    split
    · exact (keeps_mk s ..).trans (keeps_drumStep _)
    · exact keeps_mk s ..

/-- R147: a second tick empties the illegal-transition counts. -/
theorem keeps_drumSecondTick (s : State) : Keeps s { s with drums := s.drums.map (fun d => { d with illegal := 0 }) } :=
  keeps_drums s _ fun h => drumsInRange_map h _ fun d hd =>
    (drum_inRange_iff _).2 ⟨Nat.zero_le _, ((drum_inRange_iff d).1 hd).2⟩

/-! ## Wind (R152 to R154) -/

theorem keeps_anemometerPulse (s : State) : Keeps s { s with wind := { s.wind with pulses := min (s.wind.pulses + 1) 65535 } } :=
  keeps_wind s _ fun _ => min_le_right ..

theorem keeps_windSecondTick (s : State) : Keeps s (windSecondTick s) := by
  unfold windSecondTick
  extract_lets speed hold s1
  have closed : Keeps s s1 := keeps_wind s _ fun _ => Nat.zero_le _
  split
  · exact closed
  · rw [State.windNotice, notify_told]
    exact (closed.told _).hands _

/-! ## Lanes and winches (R129 to R138) -/

theorem lane_inRange_iff (r : LaneRec) : r.inRange = true ↔
    r.history.length ≤ 12 ∧ r.samples ≤ 15 ∧ ∀ c, r.check = some c → c.matched < 64 := by
  cases h : r.check <;> simp [LaneRec.inRange, h, and_assoc]

theorem winch_inRange_iff (r : WinchRec) : r.inRange = true ↔ r.overload ≤ 3 ∧ r.slack ≤ 3 := by
  simp [WinchRec.inRange]

theorem keeps_setLane (s : State) (l : Lane) (r : LaneRec)
    (h : (s.tension.lanes.get l).inRange = true → r.inRange = true) : Keeps s (s.setLane l r) := by
  refine keeps_tension s _ fun ⟨lanes, winches⟩ => ⟨fun k => ?_, winches⟩
  rw [oct_get_set]
  split
  · exact h (lanes l)
  · exact lanes k

theorem keeps_setWinch (s : State) (w : Winch) (r : WinchRec)
    (h : (s.tension.winches.get w).inRange = true → r.inRange = true) : Keeps s (s.setWinch w r) := by
  refine keeps_tension s _ fun ⟨lanes, winches⟩ => ⟨lanes, fun v => ?_⟩
  rw [quad_get_set]
  split
  · exact h (winches w)
  · exact winches v

theorem keeps_formTensionCap (s : State) : Keeps s (formTensionCap s) := by
  unfold formTensionCap
  split
  · exact keeps_tension s _ id
  · exact .refl s

theorem formWinch_inRange (tolerance : Int) (a b : Bool) (r : WinchRec) :
    (formWinch tolerance a b r).inRange = r.inRange := by
  unfold formWinch
  (repeat' split) <;> rfl

theorem keeps_reformWinch (s : State) (w : Winch) : Keeps s (reformWinch s w) :=
  keeps_setWinch s w _ fun h => by rwa [formWinch_inRange]

theorem protectCount_le (hit : Bool) (n : Nat) : protectCount hit n ≤ 3 := by
  cases hit
  · exact Nat.zero_le _
  · exact min_le_right ..

theorem keeps_protectWinch (s : State) (w : Winch) : Keeps s (protectWinch s w) := by
  have counted := keeps_setWinch s w { s.tension.winches.get w with
      overload := protectCount (decide (s.settings.tensionMax.get w ≤ (s.tension.winches.get w).tension))
        (s.tension.winches.get w).overload
      slack := protectCount (decide ((s.tension.winches.get w).tension ≤ s.settings.tensionSlack.get w))
        (s.tension.winches.get w).slack }
    fun _ => (winch_inRange_iff _).2 ⟨protectCount_le .., protectCount_le ..⟩
  unfold protectWinch
  dsimp only
  split
  · split <;> split
    · exact (counted.hands _).hands _
    · exact counted.hands _
    · exact counted.hands _
    · exact counted
  · exact .refl s

theorem setCell_inRange (r : WinchRec) (c : Cell) (v : Int) : (r.setCell c v).inRange = r.inRange := by
  cases c <;> rfl

theorem keeps_outputUpdate (s : State) (w : Winch) (c : Cell) (v : Int) : Keeps s (outputUpdate s w c v) :=
  (keeps_setWinch s w _ fun h => by rwa [setCell_inRange]).trans
    ((keeps_reformWinch _ w).trans ((keeps_protectWinch _ w).trans (keeps_formTensionCap _)))

theorem keeps_freshnessUpdate (s : State) (w : Winch) : Keeps s (freshnessUpdate s w) := by
  have formed := (keeps_reformWinch s w).trans (keeps_formTensionCap _)
  unfold freshnessUpdate
  dsimp only
  split
  · exact formed.hands _
  · exact formed

theorem keeps_freshnessOf (s : State) (mapping : Option CellName) : Keeps s (freshnessOf s mapping) := by
  cases mapping with
  | none => exact .refl s
  | some m => exact keeps_freshnessUpdate s m.winch

/-! ## Lane checks and samples (R130 to R141) -/

theorem Keeps.setService {s t : State} (h : Keeps s t) (p : Port) (v : Option Service) :
    Keeps s (t.setPort p { t.port p with service := v }) :=
  h.trans (keeps_setPort t p _ id)

theorem keeps_closeCheckAt (s : State) (p : Port) (l : Lane) (status : Status) (detail2 : Nat) :
    Keeps s (closeCheckAt s p l status detail2) := by
  unfold closeCheckAt
  split
  · exact ((Keeps.refl s).setService p none).close ..
  · exact .refl s

theorem keeps_closeCheck (s : State) (l : Lane) (status : Status) (detail2 : Nat) :
    Keeps s (closeCheck s l status detail2) := by
  unfold closeCheck
  split
  · exact keeps_closeCheckAt ..
  · split
    · exact keeps_closeCheckAt ..
    · exact .refl s

theorem Keeps.laneNotice {s t : State} (h : Keeps s t) (l : Lane) (reason : LaneReason) (previous : LaneState) (n : Nat) :
    Keeps s (t.laneNotice l reason previous n) := by
  rw [State.laneNotice, notify_told]
  exact h.told _

/-- The end of a check, by its 64th word, a failure or an ABORT, leaves the rest of the lane's counts. -/
theorem keeps_endCheck (s : State) (l : Lane) (state : LaneState) (watch : Bool) :
    Keeps s (s.setLane l { s.tension.lanes.get l with state := state, watch := watch, check := none }) :=
  keeps_setLane s l _ fun h => by
    obtain ⟨long, many, -⟩ := (lane_inRange_iff _).1 h
    exact (lane_inRange_iff _).2 ⟨long, many, by simp⟩

theorem keeps_failCheck (s : State) (l : Lane) (mark : Nat) : Keeps s (failCheck s l mark) :=
  ((keeps_endCheck s l .bad false).laneNotice ..).trans (keeps_closeCheck ..)

/-- R140: the word that would be the 64th ends the check. -/
theorem keeps_checkSample (s : State) (l : Lane) (word : BitVec 16) : Keeps s (checkSample s l word) := by
  unfold checkSample
  dsimp only
  split
  · split
    · exact ((keeps_endCheck s l .good true).laneNotice ..).trans (keeps_closeCheck ..)
    next below =>
      refine keeps_setLane s l _ fun h => ?_
      obtain ⟨long, many, matched⟩ := (lane_inRange_iff _).1 h
      have held : ((s.tension.lanes.get l).check.getD ⟨none, 0⟩).matched < 64 := by
        cases check : (s.tension.lanes.get l).check with
        | none => simp
        | some c => exact matched c check
      refine (lane_inRange_iff _).2 ⟨long, many, fun c hc => ?_⟩
      obtain rfl := Option.some.inj hc
      exact Nat.lt_of_le_of_ne held below
  · exact keeps_failCheck s l 0

/-- R13, R134, R139: a lane with its history emptied, a check that starts among them. -/
theorem keeps_emptyLane (s : State) (l : Lane) (state : LaneState) (watch : Bool) (check : Option Check)
    (fresh : check = none ∨ check = some ⟨none, 0⟩ ∨ check = (s.tension.lanes.get l).check) :
    Keeps s (s.setLane l { (s.tension.lanes.get l).emptied with state := state, watch := watch, check := check }) :=
  keeps_setLane s l _ fun h => by
    obtain ⟨-, -, matched⟩ := (lane_inRange_iff _).1 h
    refine (lane_inRange_iff _).2 ⟨by simp [LaneRec.emptied], by simp [LaneRec.emptied], ?_⟩
    obtain rfl | rfl | rfl := fresh
    · simp
    · simp
    · exact matched

/-- R130: the count goes from 15 to 12, and the history keeps 12 values. -/
theorem push_inRange (r : LaneRec) (y : Int) (h : r.inRange = true) : (r.push y).inRange = true := by
  obtain ⟨-, many, matched⟩ := (lane_inRange_iff r).1 h
  refine (lane_inRange_iff _).2 ⟨by simp [LaneRec.push], ?_, matched⟩
  simp only [LaneRec.push]
  split <;> omega

theorem keeps_historySample (s : State) (l : Lane) (word : BitVec 16) : Keeps s (historySample s l word) := by
  unfold historySample
  extract_lets r st pushed r1 v s1
  have ranged : r.inRange = true → r1.inRange = true := fun h => by
    have same : r1.inRange = pushed.inRange := by
      unfold r1
      split <;> rfl
    rw [same]
    exact push_inRange r _ h
  split
  · have delivered : Keeps s s1 := keeps_setLane s l _ ranged
    split
    · exact delivered.trans (keeps_outputUpdate ..)
    · exact delivered
  · exact keeps_setLane s l r1 ranged

theorem keeps_restoreLane (s : State) (l : Lane) : Keeps s (restoreLane s l) :=
  (keeps_emptyLane s l .good _ _ (.inr (.inr rfl))).laneNotice ..

theorem keeps_sampleArrival (l : Lane) (word : BitVec 16) (s : State) : Keeps s (sampleArrival l word s) := by
  unfold sampleArrival
  split
  · exact keeps_checkSample s l word
  · exact (keeps_restoreLane s l).trans (keeps_historySample _ l word)
  · exact keeps_historySample s l word

theorem keeps_silenceExpiry (l : Lane) (s : State) : Keeps s (silenceExpiry l s) := by
  unfold silenceExpiry
  dsimp only
  split
  · split
    · exact ((keeps_setLane s l { s.tension.lanes.get l with state := .stale, watch := false } id).laneNotice ..).trans
        (keeps_freshnessOf ..)
    · exact keeps_failCheck s l 0x80
    · exact .refl s
  · exact .refl s

theorem keeps_startCheck (p : Port) (tag : Byte) (l : Lane) (s : State) : Keeps s (startCheck p tag l s) := by
  have started := ((keeps_emptyLane s l .checking true _ (.inr (.inl rfl))).laneNotice l .checkStarted
    (s.tension.lanes.get l).state 0).serve p tag (.laneCheck l)
  unfold startCheck
  dsimp only
  split
  · exact started.trans (keeps_freshnessOf ..)
  · exact started

theorem keeps_laneCheck (p : Port) (tag : Byte) (n : Nat) (s : State) : Keeps s (laneCheck p tag n s) := by
  simp only [laneCheck]
  (repeat' split) <;> simp [keeps_startCheck]

theorem keeps_settingReset (l : Lane) (served : Option CellName) (s : State) : Keeps s (settingReset l served s) := by
  have emptied := (keeps_emptyLane s l .unchecked false none (.inl rfl)).laneNotice l .setting
    (s.tension.lanes.get l).state 0
  unfold settingReset
  dsimp only
  split
  · exact emptied.trans (keeps_closeCheck ..)
  · exact emptied.trans (keeps_freshnessOf ..)
  · exact emptied

theorem keeps_filterReset (s : State) : Keeps s (filterReset s) := by
  have emptied : Keeps s { s with tension := { s.tension with lanes := s.tension.lanes.map LaneRec.emptied } } := by
    refine keeps_tension s _ fun ⟨lanes, winches⟩ => ⟨fun l => ?_, winches⟩
    obtain ⟨-, -, matched⟩ := (lane_inRange_iff _).1 (lanes l)
    rw [oct_get_map]
    exact (lane_inRange_iff _).2 ⟨by simp [LaneRec.emptied], by simp [LaneRec.emptied], matched⟩
  exact emptied.trans (keeps_foldl freshnessUpdate keeps_freshnessUpdate _ _)

theorem keeps_abortCheck (l : Lane) (s : State) : Keeps s (abortCheck l s) :=
  (keeps_endCheck s l .unchecked false).laneNotice ..

end Sys2Proof.Proofs
end

section
namespace Sys2Proof.Proofs
open Sys2Proof.Machine

/-! ## The drive bus (R157 to R164) -/

theorem drive_inRange_iff (d : Drive) : d.inRange = true ↔ d.watchAge ≤ 255 ∧ ∀ a, d.statusAge = some a → a ≤ 255 := by
  cases h : d.statusAge <;> simp [Drive.inRange, h]

/-- Another bus record with the drives, the failure count and the countdown of the old one. -/
theorem keeps_slots (s : State) (x : Bus) (drives : x.drives = s.bus.drives) (failures : x.failures = s.bus.failures)
    (countdown : x.countdown = s.bus.countdown) : Keeps s { s with bus := x } :=
  keeps_bus s x fun h => by rwa [busInRange, drives, failures, countdown]

theorem keeps_setDrive (s : State) (w : Winch) (d : Drive)
    (h : (s.bus.drives.get w).inRange = true → d.inRange = true) :
    Keeps s { s with bus := { s.bus with drives := s.bus.drives.set w d } } := by
  refine keeps_bus s _ fun ⟨drives, counts⟩ => ⟨fun v => ?_, counts⟩
  rw [quad_get_set]
  split
  · exact h (drives w)
  · exact drives v

theorem keeps_takeWrite (s : State) : Keeps s (takeWrite s) := by
  unfold takeWrite
  split
  · exact .refl s
  next w rest _ =>
    dsimp only
    split
    · exact (keeps_slots s (s.bus.write w) rfl rfl rfl).hands _
    · exact keeps_mk s ..

theorem keeps_takeWrites (s : State) : Keeps s (takeWrites s) := keeps_foldl _ (fun t _ => keeps_takeWrite t) _ s

theorem keeps_takeRaise (s : State) : Keeps s (takeRaise s) := by
  unfold takeRaise
  split
  · exact .refl s
  · dsimp only
    split
    · exact (keeps_slots s (s.bus.raiseStop (s.carrier.first.map Report.cause)) rfl rfl rfl).hands _
    · exact keeps_mk s ..

theorem keeps_expiryReady (s : State) : Keeps s (expiryReady s) := by
  unfold expiryReady
  split
  · exact keeps_foldl _ (fun t _ => keeps_takeRaise t) _ s
  all_goals exact .refl s

theorem keeps_transmitBegin (s : State) : Keeps s (transmitBegin s) := by
  unfold transmitBegin
  split
  · exact .refl s
  · split
    · exact keeps_slots s _ rfl rfl rfl
    · exact keeps_slots s _ rfl rfl rfl

theorem giveBack_frame (b : Bus) (c : TxContent) : (b.giveBack c).drives = b.drives ∧
    (b.giveBack c).failures = b.failures ∧ (b.giveBack c).countdown = b.countdown := by
  cases c <;> simp only [Bus.giveBack] <;> split <;> exact ⟨rfl, rfl, rfl⟩

theorem keeps_countFailure (c : TxContent) (s : State) : Keeps s (countFailure c s) := by
  have counted : Keeps s { s with bus := { s.bus with failures := min (s.bus.failures + 1) 16 } } :=
    keeps_bus s _ fun ⟨drives, _, countdown⟩ => ⟨drives, min_le_right .., countdown⟩
  unfold countFailure
  dsimp only
  split
  · exact counted.hands _
  · exact counted

theorem keeps_transmissionEnd (o : TxOutcome) (s : State) : Keeps s (transmissionEnd o s) := by
  have returned : ∀ c, Keeps s { s with bus := ({ s.bus with flight := none } : Bus).giveBack c } := fun c => by
    obtain ⟨drives, failures, countdown⟩ := giveBack_frame { s.bus with flight := none } c
    exact keeps_slots s _ drives failures countdown
  unfold transmissionEnd
  split
  · exact .refl s
  · cases o with
    | acknowledged => exact keeps_bus s _ fun ⟨drives, _, countdown⟩ => ⟨drives, Nat.zero_le _, countdown⟩
    | lost => exact returned _
    | failed => exact (returned _).trans (keeps_countFailure _ _)

theorem foldl_write_frame (ws : List SlotWrite) (b : Bus) : (ws.foldl Bus.write b).drives = b.drives ∧
    (ws.foldl Bus.write b).failures = b.failures := by
  induction ws generalizing b with
  | nil => exact ⟨rfl, rfl⟩
  | cons w rest ih => exact ih (b.write w)

/-- R163: the countdown starts again at 25. -/
theorem keeps_keepalive (s : State) : Keeps s (keepalive s) := by
  have restarted : ∀ b : Bus, b.drives = s.bus.drives → b.failures = s.bus.failures →
      Keeps s { s with bus := { b with keepaliveDue := false, countdown := 25 } } := fun b drives failures =>
    keeps_bus s _ fun ⟨inRange, count, _⟩ => ⟨by rwa [drives], by rwa [failures], le_rfl⟩
  unfold keepalive
  split
  · dsimp only
    split
    · exact restarted _ rfl rfl
    next p _ =>
      obtain ⟨drives, failures⟩ := foldl_write_frame (winches.map (keepaliveWrite p)) s.bus
      exact restarted _ drives failures
  · exact .refl s

theorem keeps_statusTimeout (w : Winch) (s : State) : Keeps s (statusTimeout w s) := by
  unfold statusTimeout
  dsimp only
  split
  · exact (keeps_setDrive s w { s.bus.drives.get w with timeoutDue := false } id).hands _
  · exact .refl s

theorem ageStatus_inRange (d : Drive) (h : d.inRange = true) : d.ageStatus.inRange = true := by
  obtain ⟨watch, -⟩ := (drive_inRange_iff d).1 h
  refine (drive_inRange_iff _).2 ⟨watch, fun a aged => ?_⟩
  obtain ⟨b, -, rfl⟩ := Option.map_eq_some_iff.1 aged
  exact min_le_right ..

theorem ageRigged_inRange (limit : Nat) (rearm : Bool) (d : Drive) (h : d.inRange = true) :
    (d.ageRigged limit rearm).inRange = true := by
  obtain ⟨-, status⟩ := (drive_inRange_iff _).1 (ageStatus_inRange d h)
  exact (drive_inRange_iff _).2 ⟨min_le_right .., status⟩

theorem busInRange_expire (b : Bus) (mode : Mode) (h : busInRange b) : busInRange (b.expire mode) := by
  obtain ⟨drives, counts⟩ := h
  refine ⟨fun w => ?_, counts⟩
  simp only [Bus.expire, quad_get_map]
  exact ageRigged_inRange _ _ _ (drives w)

theorem busInRange_countKeepalive (b : Bus) (entering : Bool) (h : busInRange b) :
    busInRange (b.countKeepalive entering) := by
  obtain ⟨drives, failures, countdown⟩ := h
  unfold Bus.countKeepalive
  extract_lets n
  have counted : n ≤ 25 := by
    unfold n
    split <;> omega
  split
  · exact ⟨drives, failures, counted⟩
  · exact ⟨drives, failures, (Nat.sub_le ..).trans counted⟩

theorem keeps_ageAndKeep (s : State) : Keeps s (ageAndKeep s) := by
  unfold ageAndKeep
  split
  · extract_lets mode counted s1
    have counts : busInRange s.bus → busInRange counted := fun h => by
      unfold counted
      split
      · exact busInRange_countKeepalive _ _ h
      · exact h
    have aged : Keeps s { s with bus := counted.expire mode } := keeps_bus s _ fun h => busInRange_expire _ _ (counts h)
    exact (aged.trans (keeps_keepalive _)).trans (keeps_foldl _ (fun t w => keeps_statusTimeout w t) _ _)
  · refine keeps_bus s _ fun ⟨drives, counts⟩ => ⟨fun w => ?_, counts⟩
    rw [quad_get_map]
    exact ageStatus_inRange _ (drives w)

theorem keeps_statusReceived (f : CanFrame) (s : State) : Keeps s (statusReceived f s) := by
  unfold statusReceived
  split
  · exact .refl s
  next w state fault echo _ =>
    have heard := keeps_setDrive s w ⟨some 0, 0, some state, fault, echo, false⟩ fun _ => rfl
    dsimp only
    split
    · exact heard.hands _
    · exact heard

/-! ## The servo step and the freeze (R112, R124, R126) -/

theorem keeps_settleStep (s : State) : Keeps s (settleStep s) :=
  (keeps_takeWrites s).trans ((keeps_zoneReady _).trans ((keeps_takeQueueResult _).trans
    ((keeps_takeCarrierResult _).trans (keeps_takeDrumResult _))))

theorem keeps_servoStep (s : State) : Keeps s (servoStep s) := by
  unfold servoStep
  split
  · dsimp only
    split
    · exact keeps_settleStep s
    · exact (keeps_settleStep s).trans (keeps_mk ..)
  · exact .refl s

theorem keeps_freeze (s : State) : Keeps s (Machine.freeze s) := by
  unfold Machine.freeze
  split
  · dsimp only
    split
    · exact keeps_mk s ..
    · exact keeps_mk s ..
  · exact .refl s

/-! ## The request stage, ABORT and the transmit arbiter (R168 to R176) -/

theorem keeps_receiveCharacter (p : Port) (b : Byte) (stop : Bool) (s : State) :
    Keeps s (s.setPort p ((s.port p).character b stop)) :=
  keeps_setPort s p _ fun h => by cases stop <;> exact h

theorem keeps_passRequest (s : State) (p : Port) (tag : Byte) (c : Instr) : Keeps s (passRequest s p tag c) := by
  have passed : Keeps s (s.setPort p { s.port p with passed := some c }) := keeps_setPort s p _ id
  unfold passRequest
  split
  · split
    · exact passed
    · simp
  · exact passed

theorem keeps_takeFrame (s : State) (p : Port) (f : RawFrame) : Keeps s (takeFrame s p f) := by
  simp only [takeFrame]
  (repeat' split) <;> simp [keeps_passRequest]

theorem keeps_requestFrame (p : Port) (s : State) : Keeps s (requestFrame p s) := by
  unfold requestFrame
  split
  next rest _ _ =>
    have shifted : Keeps s (s.setPort p { s.port p with completed := rest }) := keeps_setPort s p _ id
    exact shifted.trans (keeps_takeFrame ..)
  · exact .refl s

theorem keeps_endService (p : Port) (v : Service) (s : State) : Keeps s (endService p v s) := by
  have freed := (Keeps.refl s).setService p none
  unfold endService
  dsimp only
  split
  · exact (freed.trans (keeps_abortCheck _ _)).close ..
  · exact freed.close ..

theorem keeps_abort (p : Port) (tag : Byte) (s : State) : Keeps s (Machine.abort p tag s) := by
  unfold Machine.abort
  split
  · simp
  · exact (keeps_endService ..).close ..

/-- A port's record with the telemetry interval and countdown of another. -/
def SameTelemetry (r r' : PortRec) : Prop := r'.interval = r.interval ∧ r'.countdown = r.countdown

/-- A class of the transmit arbiter begins a frame in the port's record without touching its telemetry countdown. -/
def LeavesTelemetry (r : PortRec) (begun : Option Begun) : Prop := ∀ f, begun = some f → SameTelemetry r f.2

theorem LeavesTelemetry.orElse {r : PortRec} {a b : Option Begun} (ha : LeavesTelemetry r a) (hb : LeavesTelemetry r b) :
    LeavesTelemetry r (a <|> b) := by
  cases a with
  | none => exact hb
  | some f => exact ha

theorem nextFrame_leavesTelemetry (s : State) (r : PortRec) : LeavesTelemetry r (nextFrame s r) := by
  have answers : LeavesTelemetry r (answerFrame r) := by
    unfold answerFrame
    (repeat' split) <;> simp [LeavesTelemetry, SameTelemetry]
  have notices : LeavesTelemetry r (oldestNotice r) := by
    unfold oldestNotice
    split <;> simp [LeavesTelemetry, SameTelemetry]
  have listing : LeavesTelemetry r (listingFrame s r) := by
    unfold listingFrame
    (repeat' split) <;> simp [LeavesTelemetry, SameTelemetry]
  have telemetry : LeavesTelemetry r (dueTelemetry s r) := by
    unfold dueTelemetry
    split <;> simp [LeavesTelemetry, SameTelemetry]
  exact answers.orElse (notices.orElse (listing.orElse telemetry))

theorem keeps_portLineFree (p : Port) (s : State) : Keeps s (portLineFree p s) := by
  unfold portLineFree
  split
  next f r found =>
    obtain ⟨(interval : r.interval = _), (countdown : r.countdown = _)⟩ := nextFrame_leavesTelemetry s (s.port p) _ found
    exact keeps_setPort s p _ fun h => by simpa only [PortRec.inRange, interval, countdown] using h
  · exact keeps_setPort s p { s.port p with line := none } id

/-! ## The telemetry countdown (R9, R174) -/

theorem port_inRange_iff (r : PortRec) : r.inRange = true ↔
    (r.interval = 0 ∨ (5 ≤ r.interval ∧ r.interval ≤ 250)) ∧ r.countdown ≤ 250 := by
  simp [PortRec.inRange]

theorem telemetryDue_inRange (r : PortRec) (h : r.inRange = true) : r.telemetryDue.inRange = true := by
  rw [port_inRange_iff] at *
  unfold PortRec.telemetryDue
  split
  · exact ⟨h.1, by dsimp only; omega⟩
  · exact h

theorem expire_inRange (r : PortRec) (h : r.inRange = true) : r.expire.inRange = true := by
  unfold PortRec.expire
  split
  · exact h
  · refine telemetryDue_inRange _ ?_
    rw [port_inRange_iff] at *
    exact ⟨h.1, (Nat.sub_le ..).trans h.2⟩

theorem keeps_setInterval (p : Port) (tag : Byte) (id index : Nat) (n : Int) (s : State) :
    Keeps s (setInterval p tag id index n s) := by
  have clamped : clampInterval n = 0 ∨ (5 ≤ clampInterval n ∧ clampInterval n ≤ 250) := by
    unfold clampInterval
    (repeat' split) <;> omega
  exact (keeps_setPort s p _ fun _ => (port_inRange_iff _).2 ⟨clamped, by simp only [PortRec.setInterval]; omega⟩).close ..

/-! ## SET and GET (R7 to R13) -/

theorem keeps_rigEffects (id index : Nat) (before : Oct (Option CellName)) (s : State) :
    Keeps s (rigEffects id index before s) := by
  unfold rigEffects
  dsimp only
  split
  all_goals simp [keeps_settingReset, keeps_filterReset]

theorem keeps_setSetting (p : Port) (tag : Byte) (id index : Nat) (v : Vec3) (s : State) :
    Keeps s (setSetting p tag id index v s) := by
  unfold setSetting
  split
  · simp
  · unfold setRig
    split
    · simp
    · split
      · simp
      · exact ((keeps_mk s ..).trans (keeps_rigEffects _ _ _ _)).close ..
  · simp only [setLive]
    (repeat' split) <;> simp
  · exact keeps_setInterval ..

theorem keeps_getSetting (p : Port) (tag : Byte) (id index : Nat) (s : State) :
    Keeps s (getSetting p tag id index s) := by
  unfold getSetting
  split <;> simp

/-! ## RIG_COMMIT and UNRIG (R17, R19) -/

theorem commitDrums_inRange (drums : Quad Drum) (lengths : Quad Int) : drumsInRange (commitDrums drums lengths) := by
  intro w
  fin_cases w <;> rfl

theorem tensionInRange_commit {t : Tension} (st : Settings) (h : tensionInRange t) : tensionInRange (t.commit st) := by
  refine ⟨h.1, fun w => ?_⟩
  simp [Tension.commit, winch_inRange_iff]

theorem busInRange_commit {b : Bus} (h : busInRange b) : busInRange b.commit := by
  refine ⟨fun w => ?_, Nat.zero_le _, Nat.zero_le _⟩
  obtain ⟨-, status⟩ := (drive_inRange_iff _).1 (h.1 w)
  simp only [Bus.commit, quad_get_map]
  exact (drive_inRange_iff _).2 ⟨Nat.zero_le _, status⟩

theorem keeps_commitAt (pose : Vec3) (s : State) : Keeps s (commitAt pose s) := by
  have carrier : Keeps s { s with carrier := s.carrier.commit, hands := s.hands.commit } :=
    keeps_cleared _ (.inl rfl) rfl rfl rfl (fun _ => rfl) rfl (fun _ => le_rfl) _
  exact carrier.trans (.of_blocks rfl (tensionInRange_commit _) (fun _ => commitDrums_inRange _ _) busInRange_commit
    (fun p => by cases p <;> exact id) id id id)

theorem keeps_rigCommit (p : Port) (tag : Byte) (pose : Vec3) (s : State) : Keeps s (rigCommit p tag pose s) := by
  unfold rigCommit
  split
  · simp
  · split
    · simp
    · split
      · simp
      · rw [modeNotice_told]
        exact ((keeps_commitAt _ s).close ..).told _

theorem unrig_inRange (d : Drum) (h : d.inRange = true) : d.unrig.inRange = true := by
  rw [drum_inRange_iff] at *
  exact ⟨h.1, Nat.zero_le _⟩

theorem keeps_unrigBlocks (s : State) : Keeps s (unrigBlocks s) := by
  have carrier : Keeps s { s with carrier := s.carrier.unrig, hands := s.hands } :=
    keeps_cleared _ (.inr (by simp [Carrier.unrig])) rfl rfl (by simp [Carrier.unrig, Bool.eq_false_iff, toMode_stickOwned])
      (fun ⟨_, zero⟩ => toMode_steer _ _ zero (by simp)) rfl (by simp [Carrier.unrig]) _
  exact carrier.trans (.of_blocks rfl id (fun h => drumsInRange_map h _ unrig_inRange) id (fun p => by cases p <;> exact id)
    id id (fun _ => by simp [unrigBlocks, raiseStopNow, stallsInRange]))

theorem keeps_unrigNow (s : State) : Keeps s (unrigNow s) := by
  have noticed := ((keeps_unrigBlocks s).told [.queue .unrig s.queue.entries.length]).told
    [modeNews .unrig (unrigBlocks s).carrier s.carrier.mode]
  unfold unrigNow
  simp only [State.windNotice, notify_told, modeNotice_told]
  refine Keeps.trans ?_ (keeps_settleMarks _)
  refine Keeps.applyZoneWork ?_ _
  split
  · exact noticed.told _
  · exact noticed

theorem keeps_unrig (p : Port) (tag : Byte) (s : State) : Keeps s (Machine.unrig p tag s) := by
  unfold Machine.unrig
  split
  · simp
  · exact ((keeps_queueReady s).trans (keeps_unrigNow _)).close ..

/-! ## Hard reset and the timebase (R1, R6) -/

theorem keeps_hardReset (lines : ResetLines) (s : State) :
    Keeps s { State.resetWith lines with pending := s.pending } where
  stick _ := by simp [State.stickAgrees, State.resetWith, Carrier.reset, Vec.zero]
  halt _ := by simp [State.haltAgrees, State.resetWith, Carrier.reset, Mode.isHalted]
  wind _ := by simp [State.windGrounds, State.resetWith, Carrier.reset]
  counters _ := by
    have tension : tensionInRange .reset := ⟨by decide, by decide⟩
    have bus : busInRange .reset := ⟨by decide, Nat.zero_le _, Nat.zero_le _⟩
    have drums : drumsInRange (lines.encoders.map Drum.reset) := fun w => by rw [quad_get_map]; rfl
    exact (countersInRange_iff _).2 ⟨tension, drums, bus, fun p => by cases p <;> rfl, le_rfl, Nat.zero_le _,
      Nat.zero_lt_succ _, fun e mem => nomatch mem⟩

theorem keeps_idle (s : State) : Keeps s (idle s) := by
  unfold idle tickPeriod
  dsimp only
  split
  · split
    · exact (keeps_periods s 0 fun _ => Nat.zero_lt_succ _).trans (keeps_mk _ ..)
    next more => exact (keeps_periods s (s.periods + 1) fun below => Nat.lt_of_le_of_ne below more).trans (keeps_mk _ ..)
  · exact keeps_mk s ..

end Sys2Proof.Proofs
end

section
namespace Sys2Proof.Proofs
open Sys2Proof.Machine

/-! ## Every command and every step -/

theorem execFaultReport_keeps (s : State) : ∃ t, execFaultReport s = .next t ∧ Keeps s t := by
  unfold execFaultReport
  split
  · exact ⟨_, rfl, .refl s⟩
  · exact ⟨_, rfl, ((keeps_carrierReady s).hands _).trans (keeps_raiseCause _ _)⟩

theorem execEndTravel_keeps (s : State) : ∃ t, execEndTravel s = .next t ∧ Keeps s t := by
  unfold execEndTravel
  split
  · exact ⟨_, rfl, .refl s⟩
  · exact ⟨_, rfl, (keeps_mk s ..).trans (keeps_endTravel _ _)⟩

theorem execWindHoldChange_keeps (s : State) : ∃ t, execWindHoldChange s = .next t ∧ Keeps s t := by
  unfold execWindHoldChange
  split
  · exact ⟨_, rfl, .refl s⟩
  · exact ⟨_, rfl, (keeps_mk s ..).trans (keeps_windHoldChange _ _)⟩

theorem execTravelBegun_keeps (s : State) : ∃ t, execTravelBegun s = .next t ∧ Keeps s t := by
  unfold execTravelBegun
  split
  · exact ⟨_, rfl, ((keeps_mk s ..).trans (keeps_queueReady _)).trans (keeps_travelBegun _ _)⟩
  · exact ⟨_, rfl, .refl s⟩

theorem execTravelEnded_keeps (s : State) : ∃ t, execTravelEnded s = .next t ∧ Keeps s t := by
  unfold execTravelEnded
  split
  · exact ⟨_, rfl, ((keeps_mk s ..).trans (keeps_queueReady _)).trans (keeps_travelEnded _)⟩
  · exact ⟨_, rfl, .refl s⟩

theorem keeps_settledReport (s : State) : Keeps s (takeMarkReport (settleMarks s)) :=
  (keeps_settleMarks s).trans (keeps_takeMarkReport _)

theorem execRetirementReport_keeps (s : State) : ∃ t, execRetirementReport s = .next t ∧ Keeps s t := by
  unfold execRetirementReport
  split <;> exact ⟨_, rfl, by simp [keeps_settledReport]⟩

theorem execReplacementReport_keeps (s : State) : ∃ t, execReplacementReport s = .next t ∧ Keeps s t := by
  unfold execReplacementReport
  split <;> exact ⟨_, rfl, by simp [keeps_settledReport]⟩

theorem execStateChangeReport_keeps (s : State) : ∃ t, execStateChangeReport s = .next t ∧ Keeps s t := by
  unfold execStateChangeReport
  split <;> exact ⟨_, rfl, by simp [keeps_settledReport]⟩

/-- Every command keeps the agreements of carrier control and the ranges of the counters. -/
theorem exec_keeps (c : Instr) (s : State) : ∃ t, exec c s = .next t ∧ Keeps s t := by
  cases c with
  | hardReset lines => exact ⟨_, rfl, keeps_hardReset lines s⟩
  | servoStep => exact ⟨_, rfl, keeps_servoStep s⟩
  | setpointWrite => exact ⟨_, rfl, keeps_takeWrite s⟩
  | zoneStepResult => exact ⟨_, rfl, (keeps_settleMarks s).trans (keeps_takeZoneResult _)⟩
  | queueStepResult => exact ⟨_, rfl, keeps_takeQueueResult s⟩
  | dwellEnd => exact ⟨_, rfl, (keeps_queueReady s).trans (keeps_dwellEnd _)⟩
  | carrierStepResult => exact ⟨_, rfl, keeps_takeCarrierResult s⟩
  | drumStepResult => exact ⟨_, rfl, keeps_takeDrumResult s⟩
  | zoneSecondTick => exact ⟨_, rfl, (keeps_zoneReady s).applyZoneWork _⟩
  | zoneLapse n => exact ⟨_, rfl, (keeps_zoneReady s).trans (keeps_zoneLapse n _)⟩
  | drumSecondTick => exact ⟨_, rfl, keeps_drumSecondTick s⟩
  | windSecondTick => exact ⟨_, rfl, keeps_windSecondTick s⟩
  | windHoldChange => exact execWindHoldChange_keeps s
  | anemometerPulse => exact ⟨_, rfl, keeps_anemometerPulse s⟩
  | encoderTransition w levels => exact ⟨_, rfl, keeps_encoderTransition w levels s⟩
  | sampleArrival l word => exact ⟨_, rfl, keeps_sampleArrival l word s⟩
  | silenceExpiry l => exact ⟨_, rfl, keeps_silenceExpiry l s⟩
  | cueEdge => exact ⟨_, rfl, (keeps_queueReady s).trans (keeps_cueEdge _)⟩
  | estopActive level => exact ⟨_, rfl, keeps_estopActive level s⟩
  | faultReport => exact execFaultReport_keeps s
  | freeze => exact ⟨_, rfl, keeps_freeze s⟩
  | raiseStop => exact ⟨_, rfl, keeps_takeRaise s⟩
  | drivePeriodExpiry => exact ⟨_, rfl, (keeps_expiryReady s).trans (keeps_ageAndKeep _)⟩
  | statusTimeout w => exact ⟨_, rfl, keeps_statusTimeout w s⟩
  | keepalive => exact ⟨_, rfl, keeps_keepalive s⟩
  | transmitBegin => exact ⟨_, rfl, keeps_transmitBegin s⟩
  | transmissionEnd o => exact ⟨_, rfl, keeps_transmissionEnd o s⟩
  | statusReceived f => exact ⟨_, rfl, keeps_statusReceived f s⟩
  | travelBegun => exact execTravelBegun_keeps s
  | travelEnded => exact execTravelEnded_keeps s
  | endTravel => exact execEndTravel_keeps s
  | changeInForceReport => exact ⟨_, rfl, keeps_takeChangeReport s⟩
  | retirementReport => exact execRetirementReport_keeps s
  | replacementReport => exact execReplacementReport_keeps s
  | stateChangeReport => exact execStateChangeReport_keeps s
  | receiveCharacter p b stop => exact ⟨_, rfl, keeps_receiveCharacter p b stop s⟩
  | receiveGap p => exact ⟨_, rfl, keeps_setPort s p { s.port p with receiver := .hunting } id⟩
  | requestFrame p => exact ⟨_, rfl, keeps_requestFrame p s⟩
  | portLineFree p => exact ⟨_, rfl, keeps_portLineFree p s⟩
  | portPeriodExpiry p => exact ⟨_, rfl, keeps_setPort s p _ (expire_inRange _)⟩
  | telemetryDue p => exact ⟨_, rfl, keeps_setPort s p _ (telemetryDue_inRange _)⟩
  | set p tag id index v => exact ⟨_, rfl, keeps_take _ _ _ _ _ (keeps_setSetting p tag id index v)⟩
  | get p tag id index => exact ⟨_, rfl, keeps_take _ _ _ _ _ (keeps_getSetting p tag id index)⟩
  | rigCommit p tag pose => exact ⟨_, rfl, keeps_take _ _ _ _ _ (keeps_rigCommit p tag pose)⟩
  | unrig p tag => exact ⟨_, rfl, keeps_take_after _ _ _ _ keeps_carrierReady (keeps_unrig p tag)⟩
  | laneCheck p tag n => exact ⟨_, rfl, keeps_take _ _ _ _ _ (keeps_laneCheck p tag n)⟩
  | zoneAdd p tag b => exact ⟨_, rfl, keeps_take_after _ _ _ _ keeps_zoneReady (keeps_zoneAdd p tag b)⟩
  | zoneEdit p tag b => exact ⟨_, rfl, keeps_take_after _ _ _ _ keeps_zoneReady (keeps_zoneEdit p tag b)⟩
  | zoneRetire p tag n => exact ⟨_, rfl, keeps_take_after _ _ _ _ keeps_zoneReady (keeps_zoneRetire p tag n)⟩
  | zoneLock p tag n => exact ⟨_, rfl, keeps_take_after _ _ _ _ keeps_zoneReady (keeps_zoneLock p tag n)⟩
  | zoneUnlock p tag n => exact ⟨_, rfl, keeps_take_after _ _ _ _ keeps_zoneReady (keeps_zoneUnlock p tag n)⟩
  | zoneFix p tag n => exact ⟨_, rfl, keeps_take_after _ _ _ _ keeps_zoneReady (keeps_zoneFix p tag n)⟩
  | zoneRead p tag n => exact ⟨_, rfl, keeps_take_after _ _ _ _ keeps_zoneReady (keeps_zoneRead p tag n)⟩
  | zoneList p tag filter code => exact ⟨_, rfl, keeps_take_after _ _ _ _ keeps_zoneReady (keeps_zoneList p tag filter code)⟩
  | markSet p tag b => exact ⟨_, rfl, keeps_take_after _ _ _ _ keeps_settleMarks (keeps_markSet p tag b)⟩
  | markHere p tag b => exact ⟨_, rfl, keeps_take_after _ _ _ _ keeps_settleMarks (keeps_markHere p tag b)⟩
  | markRetire p tag n => exact ⟨_, rfl, keeps_take_after _ _ _ _ keeps_settleMarks (keeps_markRetire p tag n)⟩
  | markRead p tag n => exact ⟨_, rfl, keeps_take_after _ _ _ _ keeps_settleMarks (keeps_markRead p tag n)⟩
  | markList p tag n => exact ⟨_, rfl, keeps_take_after _ _ _ _ keeps_settleMarks (keeps_markList p tag n)⟩
  | moveAdd p tag b => exact ⟨_, rfl, keeps_take_after _ _ _ _ keeps_queueReady (keeps_moveAdd p tag b)⟩
  | moveCancel p tag id => exact ⟨_, rfl, keeps_take_after _ _ _ _ keeps_queueReady (keeps_moveCancel p tag id)⟩
  | queueClear p tag => exact ⟨_, rfl, keeps_take_after _ _ _ _ keeps_queueReady (keeps_queueClear p tag)⟩
  | queueList p tag => exact ⟨_, rfl, keeps_take _ _ _ _ _ fun t => (Keeps.refl t).serve ..⟩
  | run p tag => exact ⟨_, rfl, keeps_take _ _ _ _ _ (keeps_run p tag)⟩
  | stop p tag => exact ⟨_, rfl, keeps_take _ _ _ _ _ (keeps_stop p tag)⟩
  | takeStick p tag => exact ⟨_, rfl, keeps_take _ _ _ _ _ (keeps_takeStick p tag)⟩
  | steer p tag v => exact ⟨_, rfl, keeps_take_after _ _ _ _ keeps_carrierReady (keeps_steer p tag v)⟩
  | releaseStick p tag => exact ⟨_, rfl, keeps_take _ _ _ _ _ (keeps_releaseStick p tag)⟩
  | park p tag => exact ⟨_, rfl, keeps_take_after _ _ _ _ keeps_carrierReady (keeps_park p tag)⟩
  | unpark p tag => exact ⟨_, rfl, keeps_take _ _ _ _ _ (keeps_unpark p tag)⟩
  | halt p tag => exact ⟨_, rfl, keeps_take_after _ _ _ _ keeps_carrierReady (keeps_halt p tag)⟩
  | clearHalt p tag => exact ⟨_, rfl, keeps_take _ _ _ _ _ (keeps_clearHalt p tag)⟩
  | abort p tag => exact ⟨_, rfl, keeps_take _ _ _ _ _ (keeps_abort p tag)⟩

/-- A step is a command on the state without it in the queue, or what comes about while none waits. -/
theorem step_keeps (s t : State) (run : step s = .next t) : Keeps s t := by
  unfold step at run
  split at run
  · obtain rfl := Host.Outcome.next.inj run
    exact keeps_idle s
  next c rest _ =>
    obtain ⟨u, run', keeps⟩ := exec_keeps c { s with pending := rest }
    obtain rfl := Host.Outcome.next.inj (run'.symm.trans run)
    exact (keeps_mk s ..).trans keeps

/-- Settles O10: every step keeps each agreement. -/
theorem carrierControlStaysConsistent : Obligations.CarrierControlStaysConsistent :=
  ⟨fun s t stick run => (step_keeps s t run).stick stick, fun s t halt run => (step_keeps s t run).halt halt,
    fun s t wind run => (step_keeps s t run).wind wind⟩

/-- Settles O12: every step keeps the range of each counter. -/
theorem countersStayInRange : Obligations.CountersStayInRange := fun s t inRange run =>
  (step_keeps s t run).counters inRange

end Sys2Proof.Proofs
end

section
namespace Sys2Proof.Proofs
open Sys2Proof.Machine

/-! ## The effective cap (R113) -/

theorem moveCap_eq_some_iff (s : State) (m : Nat) : moveCap s = some m ↔ s.carrier.mode = .travel ∧
    ∃ e rest b, s.queue.entries = e :: rest ∧ e.state = .running ∧ e.bound = some b ∧ b.cap = some m := by
  unfold moveCap
  split
  next travel =>
    cases es : s.queue.entries with
    | nil => simp [MoveQueue.running, es]
    | cons e rest =>
      by_cases running : e.state = .running
      · cases bound : e.bound <;> simp [MoveQueue.running, es, running, travel, bound]
      · simp [MoveQueue.running, es, running]
  next other => simp [other]

/-- R113: the later cap is taken where it is less, and the earlier one keeps a tie. -/
theorem lesserCap_cases (best next : Int × Factor) :
    (lesserCap best next = next ∧ next.1 < best.1) ∨ (lesserCap best next = best ∧ best.1 ≤ next.1) := by
  unfold lesserCap
  split
  next less => exact .inl ⟨rfl, less⟩
  next least => exact .inr ⟨rfl, not_lt.1 least⟩

/-- R113: the base cap with the move cap, where there is one. -/
def capWithMove (s : State) : Int × Factor :=
  match moveCap s with
  | none => (baseCap s.settings, .setting)
  | some c => lesserCap (baseCap s.settings, .setting) (c, .move)

theorem effectiveCap_eq (s : State) : effectiveCap s =
    lesserCap (lesserCap (capWithMove s) (s.wind.cap, .wind)) (s.tension.cap, .tension) := by
  unfold effectiveCap capWithMove
  cases moveCap s <;> rfl

theorem capWithMove_cases (s : State) : (∀ m : Nat, moveCap s = some m → (capWithMove s).1 ≤ m) ∧
    (((capWithMove s).2 = .setting ∧ (capWithMove s).1 = baseCap s.settings) ∨
      ((capWithMove s).2 = .move ∧ (capWithMove s).1 < baseCap s.settings ∧
        ∃ m : Nat, moveCap s = some m ∧ (capWithMove s).1 = m)) := by
  unfold capWithMove
  cases moveCap s with
  | none => simp
  | some m =>
    rcases lesserCap_cases (baseCap s.settings, .setting) ((m : Int), .move) with ⟨taken, less⟩ | ⟨kept, least⟩
    · simp [taken, less]
    · simpa [kept] using least

/-- R113: the effective cap is one of the caps, by its factor, and it is at most each of them. -/
theorem effectiveCap_cases (s : State) :
    effectiveCap s = capWithMove s ∧ (capWithMove s).1 ≤ s.wind.cap ∧ (capWithMove s).1 ≤ s.tension.cap ∨
      effectiveCap s = (s.wind.cap, .wind) ∧ s.wind.cap < (capWithMove s).1 ∧ s.wind.cap ≤ s.tension.cap ∨
      effectiveCap s = (s.tension.cap, .tension) ∧ s.tension.cap < (capWithMove s).1 ∧ s.tension.cap < s.wind.cap := by
  rw [effectiveCap_eq]
  rcases lesserCap_cases (capWithMove s) (s.wind.cap, .wind) with ⟨wind, less⟩ | ⟨kept, least⟩
  · rw [wind]
    rcases lesserCap_cases (s.wind.cap, Factor.wind) (s.tension.cap, .tension) with ⟨e, less'⟩ | ⟨e, least'⟩
    · exact .inr (.inr ⟨e, less'.trans less, less'⟩)
    · exact .inr (.inl ⟨e, less, least'⟩)
  · rw [kept]
    rcases lesserCap_cases (capWithMove s) (s.tension.cap, .tension) with ⟨e, less'⟩ | ⟨e, least'⟩
    · exact .inr (.inr ⟨e, less', less'.trans_le least⟩)
    · exact .inl ⟨e, least, least'⟩

/-! ## Scaled vectors (R115, R117, R119) -/

theorem ceilSqrt_least (n m : Nat) (h : n ≤ m * m) : ceilSqrt n ≤ m := by
  rcases (Laws.ceilSqrt_spec n).2 with zero | below
  · omega
  · by_contra! less
    have := Nat.mul_self_le_mul_self (show m ≤ ceilSqrt n - 1 by omega)
    omega

theorem floorSqrt_greatest (n m : Nat) (h : m * m ≤ n) : m ≤ floorSqrt n := by
  by_contra! less
  have := Nat.mul_self_le_mul_self (show floorSqrt n + 1 ≤ m by omega)
  have := (Laws.floorSqrt_spec n).2
  omega

theorem vec_sq_nonneg (v : Vec3) : 0 ≤ Vec.sq v := by
  have := mul_self_nonneg v.x
  have := mul_self_nonneg v.y
  have := mul_self_nonneg v.z
  unfold Vec.sq
  omega

/-- The square of a vector is at most that of its ceil-sqrt. -/
theorem sq_le_ceilSqrt (v : Vec3) : Vec.sq v ≤ (ceilSqrt (Vec.sq v).toNat : Int) * (ceilSqrt (Vec.sq v).toNat : Int) := by
  have := (Laws.ceilSqrt_spec (Vec.sq v).toNat).1
  have := vec_sq_nonneg v
  zify [Int.toNat_of_nonneg this] at *
  assumption

/-- Truncated division by `r` loses nothing of a square: `r` times the quotient is no longer than the dividend. -/
theorem tdiv_sq_le (a r : Int) : r * r * (a.tdiv r * a.tdiv r) ≤ a * a := by
  have h : |r * a.tdiv r| ≤ |a| := by
    rw [Int.abs_eq_natAbs, Int.abs_eq_natAbs, Int.natAbs_mul, Int.natAbs_tdiv]
    exact_mod_cast Nat.mul_div_le _ _
  have := sq_le_sq.2 h
  linarith

theorem tdiv_mul_sign (k a r : Int) (hk : 0 ≤ k) (hr : 0 ≤ r) : 0 ≤ (k * a).tdiv r * a := by
  rcases le_total 0 a with pos | neg
  · exact mul_nonneg (Int.tdiv_nonneg (mul_nonneg hk pos) hr) pos
  · have mirrored : 0 ≤ (k * -a).tdiv r := Int.tdiv_nonneg (mul_nonneg hk (neg_nonneg.2 neg)) hr
    rw [mul_neg, Int.neg_tdiv] at mirrored
    exact mul_nonneg_of_nonpos_of_nonpos (by omega) neg

/-- A vector times `k`, divided by a length that it does not exceed and truncated, is no longer than `k`. -/
theorem sq_scaled_le (k r : Int) (v : Vec3) (hk : 0 ≤ k) (hr : 0 ≤ r) (long : Vec.sq v ≤ r * r) :
    Vec.sq (Vec.map (fun a => (k * a).tdiv r) v) ≤ k * k := by
  rcases eq_or_lt_of_le hr with rfl | pos
  · simp only [Vec.sq, Vec.map, Int.tdiv_zero]
    nlinarith
  · have hx := tdiv_sq_le (k * v.x) r
    have hy := tdiv_sq_le (k * v.y) r
    have hz := tdiv_sq_le (k * v.z) r
    have whole : r * r * Vec.sq (Vec.map (fun a => (k * a).tdiv r) v) ≤ r * r * (k * k) := by
      calc r * r * Vec.sq (Vec.map (fun a => (k * a).tdiv r) v) ≤ k * k * Vec.sq v := by
            simp only [Vec.sq, Vec.map] at *
            linarith
        _ ≤ k * k * (r * r) := mul_le_mul_of_nonneg_left long (mul_nonneg hk hk)
        _ = r * r * (k * k) := mul_comm _ _
    exact le_of_mul_le_mul_left whole (mul_pos pos pos)

theorem limitMagnitude_within (cap : Int) (v : Vec3) (h : Vec.sq v ≤ cap * cap) : limitMagnitude cap v = v :=
  if_neg (not_lt.2 h)

/-- R115, R119: a vector longer than the cap is scaled to it. -/
theorem limitMagnitude_beyond (cap : Int) (v : Vec3) (h : cap * cap < Vec.sq v) :
    limitMagnitude cap v = Vec.map (fun a => (cap * a).tdiv (ceilSqrt (Vec.sq v).toNat)) v := by
  simp only [limitMagnitude, if_pos h, mul_comm cap]

theorem sq_limitMagnitude_le (cap : Int) (v : Vec3) (hc : 0 ≤ cap) : Vec.sq (limitMagnitude cap v) ≤ cap * cap := by
  rcases le_or_gt (Vec.sq v) (cap * cap) with h | h
  · rwa [limitMagnitude_within cap v h]
  · rw [limitMagnitude_beyond cap v h]
    exact sq_scaled_le cap _ v hc (Int.natCast_nonneg _) (sq_le_ceilSqrt v)

theorem limitMagnitude_sign (cap : Int) (v : Vec3) (hc : 0 ≤ cap) : 0 ≤ (limitMagnitude cap v).x * v.x ∧
    0 ≤ (limitMagnitude cap v).y * v.y ∧ 0 ≤ (limitMagnitude cap v).z * v.z := by
  rcases le_or_gt (Vec.sq v) (cap * cap) with h | h
  · rw [limitMagnitude_within cap v h]
    exact ⟨mul_self_nonneg _, mul_self_nonneg _, mul_self_nonneg _⟩
  · rw [limitMagnitude_beyond cap v h]
    have r0 := Int.natCast_nonneg (ceilSqrt (Vec.sq v).toNat)
    exact ⟨tdiv_mul_sign _ _ _ hc r0, tdiv_mul_sign _ _ _ hc r0, tdiv_mul_sign _ _ _ hc r0⟩

/-! ## The approach speed (R117) -/

theorem stopDistance_nonneg (b u : Int) (hb : 0 < b) (hu : 0 ≤ u) : 0 ≤ stopDistance b u := by
  rw [← stopDistance_below_rate b 0 le_rfl hb]
  exact stopDistance_mono b 0 u hb le_rfl hu

theorem speedFits_iff (accel eff r : Int) (n : Nat) : speedFits accel eff r n = true ↔
    (n : Int) ≤ eff ∧ 4 * (n : Int) + stopDistance accel n ≤ r := by
  simp [speedFits]

/-- R117: what a faster speed passes, a slower one passes. -/
theorem speedFits_mono (accel eff r : Int) (n m : Nat) (ha : 0 < accel) (h : n ≤ m) (fits : speedFits accel eff r m = true) :
    speedFits accel eff r n = true := by
  rw [speedFits_iff] at *
  have := stopDistance_mono accel n m ha (by omega) (by omega)
  omega

theorem approachSpeed_spec (accel eff r : Int) (ha : 0 < accel) (he : 0 ≤ eff) (hr : 0 ≤ r) :
    0 ≤ approachSpeed accel eff r ∧ approachSpeed accel eff r ≤ eff ∧
      4 * approachSpeed accel eff r + stopDistance accel (approachSpeed accel eff r) ≤ r ∧
      ∀ w, 0 ≤ w → w ≤ eff → 4 * w + stopDistance accel w ≤ r → w ≤ approachSpeed accel eff r := by
  have start : speedFits accel eff r 0 = true := by
    rw [speedFits_iff]
    have := stopDistance_below_rate accel 0 le_rfl ha
    simp_all
  have stop : speedFits accel eff r (0 + 2 ^ (eff.toNat.log2 + 1)) = false := by
    rw [Bool.eq_false_iff, ne_eq, speedFits_iff, zero_add]
    have big : eff.toNat < 2 ^ (eff.toNat.log2 + 1) := Nat.lt_log2_self
    omega
  obtain ⟨fits, next, -⟩ := Laws.greatest_spec _ _ _ start stop
  have low := (speedFits_iff ..).1 fits
  refine ⟨Int.natCast_nonneg _, low.1, low.2, fun w w0 we wr => ?_⟩
  by_contra! less
  obtain ⟨n, rfl⟩ := Int.eq_ofNat_of_zero_le w0
  have faster : greatest (speedFits accel eff r) (eff.toNat.log2 + 1) 0 + 1 ≤ n := by
    unfold approachSpeed at less
    omega
  rw [speedFits_mono _ _ _ _ _ ha faster ((speedFits_iff ..).2 ⟨we, wr⟩)] at next
  exact Bool.noConfusion next

/-! ## The candidate (R118, R120) -/

theorem limitComponent_spec (accel v d : Int) (ha : 0 ≤ accel) :
    (v < d → limitComponent accel v d = min d (v + accel)) ∧ (d < v → limitComponent accel v d = max d (v - accel)) ∧
      (d = v → limitComponent accel v d = v) ∧ |limitComponent accel v d - v| ≤ accel := by
  unfold limitComponent
  rw [abs_le]
  rcases lt_trichotomy v d with h | h | h
  · rw [if_pos h]; omega
  · subst h
    simp [ha]
  · rw [if_neg (by omega), if_pos h]; omega

/-- The stop point lies beyond the point of one step, seen from the pose. -/
theorem stopPoint_beyond (b p c : Int) (hb : 0 < b) :
    (p ≤ p + 4 * c ∧ p + 4 * c ≤ stopPoint b (p + 4 * c) c) ∨ (stopPoint b (p + 4 * c) c ≤ p + 4 * c ∧ p + 4 * c ≤ p) := by
  have far := stopDistance_nonneg b c.natAbs hb (Int.natCast_nonneg _)
  unfold stopPoint
  rcases lt_trichotomy c 0 with h | rfl | h
  · rw [Int.sign_eq_neg_one_of_neg h]; omega
  · simp
  · rw [Int.sign_eq_one_of_pos h]; omega

theorem candidate_holds (stop : Int) (pose c : Vec3) (hs : 0 < stop) :
    (candidate stop pose c).box.holds pose = true ∧ (candidate stop pose c).box.holds (candidate stop pose c).pose = true ∧
      (candidate stop pose c).box.holds (Vec.map2 (stopPoint stop) (candidate stop pose c).pose c) = true := by
  have hx := stopPoint_beyond stop pose.x c.x hs
  have hy := stopPoint_beyond stop pose.y c.y hs
  have hz := stopPoint_beyond stop pose.z c.z hs
  simp only [holds_iff, candidate, Box.span, Vec.map2, Vec.add, Vec.scale]
  omega

/-- Settles O20: the least cap is found in order; a scaled vector is bounded by `sq_scaled_le`; the approach speed is
where a monotone test turns. -/
theorem desiredVelocityRespectsCaps : Obligations.DesiredVelocityRespectsCaps := by
  refine ⟨fun s => ?_, fun n => ?_, fun cap v hc => ?_, approachSpeed_spec, fun accel eff d ha he => ?_, limitComponent_spec,
    fun stop pose c hs => ⟨rfl, rfl, rfl, candidate_holds stop pose c hs⟩⟩
  · have move := moveCap_eq_some_iff s
    obtain ⟨below, setting | moved⟩ := capWithMove_cases s
    all_goals
      rcases effectiveCap_cases s with first | wind | tension
      all_goals grind [baseCap]
  · exact ⟨(Laws.ceilSqrt_spec n).1, ceilSqrt_least n, (Laws.floorSqrt_spec n).1, floorSqrt_greatest n⟩
  · refine ⟨sq_limitMagnitude_le cap v hc, limitMagnitude_within cap v, fun h => ?_, limitMagnitude_sign cap v hc⟩
    rw [limitMagnitude_beyond cap v h]
    simp only [Vec.map, mul_comm cap]
    rfl
  · have r0 := Int.natCast_nonneg (ceilSqrt (Vec.sq d).toNat)
    have s0 := (approachSpeed_spec accel eff _ ha he r0).1
    exact ⟨rfl, sq_scaled_le _ _ d s0 r0 (sq_le_ceilSqrt d), tdiv_mul_sign _ _ _ s0 r0, tdiv_mul_sign _ _ _ s0 r0,
      tdiv_mul_sign _ _ _ s0 r0⟩

end Sys2Proof.Proofs
end

section
namespace Sys2Proof.Proofs
open Sys2Proof.Machine

/-! ## The servo step and the freeze, with nothing of the step before standing (R112, R124, R126) -/

section Settled

variable {s : State} {p : Path}

theorem servoStep_offline (h : s.rigged = false) : servoStep s = s := by simp [servoStep, h]

theorem servoStep_settled (rigged : s.rigged = true) (path : s.path = some p) (settled : s.stepSettled = true) :
    servoStep s = stepPath s p := by
  simp only [servoStep, rigged, if_true, settleStep_none s settled, path]

theorem rigged_of_mode (h : s.carrier.mode ≠ .offline) : s.rigged = true := by simpa [State.rigged] using h

theorem writes_of_settled (settled : s.stepSettled = true) : s.hands.writes = [] := by
  simp only [State.stepSettled, Bool.and_eq_true, List.isEmpty_iff] at settled
  obtain ⟨⟨⟨⟨⟨-, writes⟩, -⟩, -⟩, -⟩, -⟩ := settled
  exact writes

/-- R123, R124: a step that hands no set-point publishes its motion over the lengths that stand. -/
theorem exec_servoStep_holds (m : Motion) (rigged : s.carrier.mode ≠ .offline) (path : s.path = some p)
    (settled : s.stepSettled = true) (keeps : s.carrier.mode.keepsBrakes = true)
    (motion : motionOf s p (effectiveCap s).1 = m) :
    exec .servoStep s = .next { s with
      path := some ⟨m.pose, m.vel, m.box, m.verdict, p.lengths, p.count + 1, (effectiveCap s).1, (effectiveCap s).2⟩
      hands := { s.hands with
        stepZone := some m.result, stepQueue := some m.result, stepCarrier := some m.result,
        stepDrum := some m.result, writes := [] } } := by
  have silent : s.carrier.mode.writesSetpoints = false := by simp [Mode.writesSetpoints, keeps]
  refine congrArg Host.Outcome.next ((servoStep_settled (rigged_of_mode rigged) path settled).trans ?_)
  simp [stepPath, pathAfter, motion, silent, Hands.publish, writes_of_settled settled]

/-- R123, R124: a step that hands set-points publishes its motion with the line lengths of its pose. -/
theorem exec_servoStep_writes (m : Motion) (rigged : s.carrier.mode ≠ .offline) (path : s.path = some p)
    (settled : s.stepSettled = true) (flies : s.carrier.mode.keepsBrakes = false)
    (motion : motionOf s p (effectiveCap s).1 = m) :
    exec .servoStep s = .next { s with
      path := some ⟨m.pose, m.vel, m.box, m.verdict, lineLengths s.settings.anchor m.pose, p.count + 1,
        (effectiveCap s).1, (effectiveCap s).2⟩
      hands := { s.hands with
        stepZone := some m.result, stepQueue := some m.result, stepCarrier := some m.result,
        stepDrum := some m.result, writes := stepWrites (lineLengths s.settings.anchor m.pose) (p.count + 1) } } := by
  have writes : s.carrier.mode.writesSetpoints = true := by simp [Mode.writesSetpoints, flies, rigged]
  refine congrArg Host.Outcome.next ((servoStep_settled (rigged_of_mode rigged) path settled).trans ?_)
  simp only [stepPath, pathAfter, motion, writes, Hands.publish, writes_of_settled settled, if_true, List.nil_append]
  rfl

theorem freeze_rigged (stands : s.hands.freeze = true) (rigged : s.rigged = true) : Machine.freeze s = { s with
    path := s.path.map (fun p => { p with vel := Vec.zero }), hands := { s.hands with freeze := false } } := by
  rw [Machine.freeze, if_pos stands]
  exact if_pos rigged

theorem freeze_offline (stands : s.hands.freeze = true) (off : s.rigged = false) :
    Machine.freeze s = { s with hands := { s.hands with freeze := false } } := by
  rw [Machine.freeze, if_pos stands]
  exact if_neg (Bool.eq_false_iff.1 off)

end Settled

/-! ## HALTED, and the freeze -/

/-- Settles O23: the motion of each sub-state of HALTED is one branch of Table 6-2. -/
theorem haltedStepsAndFreeze : Obligations.HaltedStepsAndFreeze := by
  refine ⟨fun s p => ⟨fun off => ?_, fun mode path settled => ?_⟩, fun s p mode path settled => ?_,
    fun s stands => ⟨fun p rigged path => ?_, fun off => ?_⟩⟩
  · exact congrArg Host.Outcome.next (servoStep_offline off)
  · have rest : motionOf s p (effectiveCap s).1 = restAt p.pose false := by simp only [motionOf, mode]
    have step := exec_servoStep_holds _ (by simp [mode]) path settled (by simp [mode, Mode.keepsBrakes]) rest
    rwa [← writes_of_settled settled] at step
  · have brakes : motionOf s p (effectiveCap s).1 = brake s.settings.stopRate p.pose p.vel := by simp only [motionOf, mode]
    exact exec_servoStep_writes _ (by simp [mode]) path settled (by simp [mode, Mode.keepsBrakes]) brakes
  · refine congrArg Host.Outcome.next ((freeze_rigged stands rigged).trans ?_)
    rw [path]
    rfl
  · exact congrArg Host.Outcome.next (freeze_offline stands off)

/-! ## The modes that fly (R114 to R122) -/

theorem keptIn_iff (zones : List Zone) (b : Box) : keptIn zones b = true ↔
    ∃ z ∈ zones, z.kind = .keepIn ∧ (z.state = .active ∨ z.state = .overdue) ∧ z.shrunk.contains b = true := by
  simp [keptIn, Zone.keepsIn, and_assoc]

theorem clearOfKeepOuts_iff (zones : List Zone) (b : Box) : clearOfKeepOuts zones b = true ↔
    ∀ z ∈ zones, z.kind = .keepOut → z.state = .active → z.expanded.meets b = false := by
  simp only [clearOfKeepOuts, List.all_eq_true, Zone.keepsOut, Bool.not_eq_true', Bool.and_eq_false_iff, beq_eq_false_iff_ne]
  refine forall_congr' fun z => forall_congr' fun _ => ?_
  tauto

theorem clearance_iff (zones : List Zone) (b : Box) : clearance zones b = true ↔
    (∀ z ∈ zones, z.kind = .keepOut → z.state = .active → z.expanded.meets b = false) ∧
      ∃ z ∈ zones, z.kind = .keepIn ∧ (z.state = .active ∨ z.state = .overdue) ∧ z.shrunk.contains b = true := by
  rw [clearance, Bool.and_eq_true, clearOfKeepOuts_iff, keptIn_iff]

/-- R119: the velocity that the step tries. -/
def triedVelocity (st : Settings) (p : Path) (d : Vec3) : Vec3 :=
  limitMagnitude st.speedCap (Vec.map2 (limitComponent st.accelRate) p.vel d)

section Toward

variable (st : Settings) (zones : List Zone) (p : Path) (d : Vec3)

theorem moveToward_still (c : triedVelocity st p d = Vec.zero) (v : p.vel = Vec.zero) :
    moveToward st zones p d = restAt p.pose false := by
  unfold triedVelocity at c
  exact if_pos (by rw [c, v]; rfl)

theorem moveToward_moves (moving : ¬(triedVelocity st p d = Vec.zero ∧ p.vel = Vec.zero)) : moveToward st zones p d =
    if clearance zones (candidate st.stopRate p.pose (triedVelocity st p d)).box then
      candidate st.stopRate p.pose (triedVelocity st p d)
    else brake st.stopRate p.pose p.vel := by
  unfold triedVelocity at *
  exact if_neg (by simpa [atRest] using moving)

end Toward

section Flying

variable {s : State} {p : Path} {d : Vec3}

theorem hasArrived_iff (accel : Int) (e : Entry) (b : Bound) : hasArrived accel p e b = true ↔
    Vec.sq (Vec.sub b.point p.pose) ≤ (1000 * e.tolerance) * (1000 * e.tolerance) ∧ |p.vel.x| ≤ accel ∧
      |p.vel.y| ≤ accel ∧ |p.vel.z| ≤ accel := by
  simp [hasArrived, Vec.all, and_assoc]

/-- R114 to R117: where a velocity is desired, the mode flies or is PARKED, and the motion is toward it. -/
theorem motionOf_desired (h : desiredVelocity s p = some d) :
    motionOf s p (effectiveCap s).1 = moveToward s.settings s.zones p d ∧ s.carrier.mode ≠ .offline ∧
      (s.carrier.mode.keepsBrakes = true ↔ s.carrier.mode = .parked) := by
  unfold desiredVelocity at h
  dsimp only at h
  split at h
  iterate 3
    next mode =>
      obtain rfl := Option.some.inj h
      simp only [motionOf, mode]
      exact ⟨rfl, by simp [Mode.keepsBrakes]⟩
  next mode =>
    simp only [motionOf, mode]
    refine ⟨?_, by simp [Mode.keepsBrakes]⟩
    split at h
    next none_ =>
      obtain rfl := Option.some.inj h
      simp only [none_]
      rfl
    next e b running =>
      split at h
      · exact absurd h (by simp)
      next away =>
        obtain rfl := Option.some.inj h
        simp only [running]
        exact if_neg fun arrived => away ((hasArrived_iff ..).1 arrived)
  all_goals exact absurd h (by simp)

/-- R123, R124: a step that flies or is PARKED publishes its motion, and hands set-points unless PARKED. -/
theorem exec_servoStep_desired (m : Motion) (path : s.path = some p) (settled : s.stepSettled = true)
    (h : desiredVelocity s p = some d) (motion : moveToward s.settings s.zones p d = m) :
    let lengths := if s.carrier.mode = .parked then p.lengths else lineLengths s.settings.anchor m.pose
    exec .servoStep s = .next { s with
      path := some ⟨m.pose, m.vel, m.box, m.verdict, lengths, p.count + 1, (effectiveCap s).1, (effectiveCap s).2⟩
      hands := { s.hands with
        stepZone := some m.result, stepQueue := some m.result, stepCarrier := some m.result,
        stepDrum := some m.result,
        writes := if s.carrier.mode = .parked then [] else stepWrites lengths (p.count + 1) } } := by
  obtain ⟨toward, rigged, parks⟩ := motionOf_desired h
  by_cases parked : s.carrier.mode = .parked
  · simpa only [parked, if_true] using exec_servoStep_holds m rigged path settled (parks.2 parked) (toward.trans motion)
  · simpa only [parked, if_false] using exec_servoStep_writes m rigged path settled
      (Bool.eq_false_iff.2 fun keeps => parked (parks.1 keeps)) (toward.trans motion)

end Flying

/-- Settles O24: toward the desired velocity the motion is one of three, and an arrival is the fourth. -/
theorem servoStepMovesBrakesOrArrives : Obligations.ServoStepMovesBrakesOrArrives := by
  refine ⟨fun s p d path settled desired => ?_, fun s p e b rest mode path settled es running bound near vx vy vz => ?_⟩
  · intro accel rate toward c next stop box v pose halt held still passes ends
    have tried : triedVelocity s.settings p d = c := rfl
    have clear : clearance s.zones (candidate rate p.pose c).box = true ↔ passes := clearance_iff s.zones box
    refine ⟨fun ⟨rest, stands⟩ => ?_, fun moves pass => ?_, fun moves fails => ?_⟩
    · exact exec_servoStep_desired _ path settled desired (moveToward_still _ _ _ _ (tried.trans rest) stands)
    · exact exec_servoStep_desired _ path settled desired
        ((moveToward_moves _ _ _ _ moves).trans (if_pos (clear.2 pass)))
    · exact exec_servoStep_desired _ path settled desired
        ((moveToward_moves _ _ _ _ moves).trans (if_neg (fails ∘ clear.1)))
  · have arrived : hasArrived s.settings.accelRate p e b = true :=
      (hasArrived_iff ..).2 ⟨by simp only [Vec.sq, Vec.sub]; linarith, vx, vy, vz⟩
    have head : s.queue.running = some (e, b) := by simp [MoveQueue.running, es, running, bound]
    have motion : motionOf s p (effectiveCap s).1 = restAt p.pose true := by
      simp only [motionOf, mode, head, flyTo, arrived, if_true]
    exact exec_servoStep_writes _ (by simp [mode]) path settled (by simp [mode, Mode.keepsBrakes]) motion

end Sys2Proof.Proofs
end

section
namespace Sys2Proof.Proofs
open Sys2Proof.Machine

/-! ## What an event may do to the zone table (R28 to R41, R121) -/

def Ascending (zones : List Zone) : Prop := zones.Pairwise (fun a b => a.number < b.number)

/-- R5: the keep-in passes the line-range test on every winch. -/
def Zone.ranged (st : Settings) (z : Zone) : Prop :=
  ∀ w, lineRangeAt (st.anchor.get w) (st.lenMin.get w) (st.lenMax.get w) z.shrunk = true

/-- R16, R28: every keep-in in force passes the line-range test. -/
def Ranged (st : Settings) (zones : List Zone) : Prop :=
  ∀ z ∈ zones, z.kind = .keepIn → z.state = .active ∨ z.state = .overdue → Zone.ranged st z

def NoneOverdue (zones : List Zone) : Prop := ∀ z ∈ zones, z.kind = .keepIn → z.state ≠ .overdue

/-- What every event at the zone table keeps, where the reference box is `ref`: the order of the table; while rigged, that
some keep-in holds the reference box (R34) and that every keep-in is in the range of the lines (R28); and while OFFLINE,
that no keep-in is OVERDUE. -/
structure ZonesKept (st : Settings) (rigged : Bool) (ref : Option Box) (zs zs' : List Zone) : Prop where
  ascending : Ascending zs → Ascending zs'
  kept : ∀ b, ref = some b → Ascending zs → keptIn zs b = true → keptIn zs' b = true
  ranged : rigged = true → Ranged st zs → Ranged st zs'
  overdue : ref = none → NoneOverdue zs → NoneOverdue zs'

section Table

variable {st : Settings} {rigged : Bool} {ref : Option Box}

theorem ZonesKept.refl (zs : List Zone) : ZonesKept st rigged ref zs zs := ⟨id, fun _ _ _ => id, fun _ => id, fun _ => id⟩

theorem ZonesKept.trans {zs zs' zs'' : List Zone} (h : ZonesKept st rigged ref zs zs')
    (g : ZonesKept st rigged ref zs' zs'') : ZonesKept st rigged ref zs zs'' where
  ascending := g.ascending ∘ h.ascending
  kept b hb asc := g.kept b hb (h.ascending asc) ∘ h.kept b hb asc
  ranged r := g.ranged r ∘ h.ranged r
  overdue n := g.overdue n ∘ h.overdue n

/-- R33, R34: a keep-in that holds the reference box and is not in use has another that holds it. -/
theorem another_of_not_inUse {zones : List Zone} {z : Zone} {b : Box} (idle : inUse (some b) zones z = false)
    (force : z.state = .active ∨ z.state = .overdue) (kind : z.kind = .keepIn) (holds : z.shrunk.contains b = true) :
    ∃ y ∈ zones, y.number ≠ z.number ∧ y.kind = .keepIn ∧ (y.state = .active ∨ y.state = .overdue) ∧
      y.shrunk.contains b = true := by
  have keeps : z.keepsIn = true := by simpa [Zone.keepsIn, kind] using force
  simp only [inUse, keeps, holds, Bool.true_and, Bool.not_eq_false', List.any_eq_true] at idle
  obtain ⟨y, mem, hy⟩ := idle
  refine ⟨y, mem, ?_⟩
  simpa [Zone.keepsIn, and_assoc] using hy

/-- A record leaves the table: a keep-out, or a keep-in that is not in use (R35, R39, R40). -/
theorem ZonesKept.remove {zs : List Zone} {n : Nat} {z : Zone} (found : zoneAt zs n = some z)
    (idle : z.kind = .keepIn → inUse ref zs z = false) : ZonesKept st rigged ref zs (removeZone n zs) where
  ascending := Laws.removeZone_sorted n zs
  kept b hb asc held := by
    subst hb
    obtain ⟨y, mem, kind, force, holds⟩ := (keptIn_iff ..).1 held
    obtain ⟨-, number⟩ := (Laws.zoneAt_eq_some zs asc n z).1 found
    by_cases same : y.number = n
    · obtain rfl : z = y := Option.some.inj (found.symm.trans ((Laws.zoneAt_eq_some zs asc n y).2 ⟨mem, same⟩))
      obtain ⟨x, memX, other, rest⟩ := another_of_not_inUse (idle kind) force kind holds
      exact (keptIn_iff ..).2 ⟨x, (Laws.mem_removeZone ..).2 ⟨memX, by rwa [number] at other⟩, rest⟩
    · exact (keptIn_iff ..).2 ⟨y, (Laws.mem_removeZone ..).2 ⟨mem, same⟩, kind, force, holds⟩
  ranged _ all y mem := all y ((Laws.mem_removeZone ..).1 mem).1
  overdue _ none_ y mem := none_ y ((Laws.mem_removeZone ..).1 mem).1

/-- A record is replaced by one of its number and kind (R31, R36 to R39). -/
theorem ZonesKept.replace {zs : List Zone} {z z' : Zone} (found : zoneAt zs z'.number = some z) (kind : z'.kind = z.kind)
    (kept : ∀ b, ref = some b → z.kind = .keepIn → z.state = .active ∨ z.state = .overdue → z.shrunk.contains b = true →
      inUse ref zs z = false ∨ ((z'.state = .active ∨ z'.state = .overdue) ∧ z'.shrunk.contains b = true))
    (ranged : rigged = true → z'.kind = .keepIn → z'.state = .active ∨ z'.state = .overdue →
      Zone.ranged st z' ∨ ((z.state = .active ∨ z.state = .overdue) ∧ z'.shrunk = z.shrunk))
    (overdue : ref = none → z.kind = .keepIn → z.state ≠ .overdue → z'.state ≠ .overdue) :
    ZonesKept st rigged ref zs (replaceZone z' zs) where
  ascending := Laws.replaceZone_sorted z' zs
  kept b hb asc held := by
    obtain ⟨y, mem, kindY, force, holds⟩ := (keptIn_iff ..).1 held
    have stays : ∀ x ∈ zs, x.number ≠ z'.number → x ∈ replaceZone z' zs := fun x mem other =>
      List.mem_map.2 ⟨x, mem, if_neg other⟩
    obtain ⟨memZ, number⟩ := (Laws.zoneAt_eq_some zs asc _ z).1 found
    by_cases same : y.number = z'.number
    · obtain rfl : z = y := Option.some.inj (found.symm.trans ((Laws.zoneAt_eq_some zs asc _ y).2 ⟨mem, same⟩))
      rcases kept b hb kindY force holds with idle | ⟨force', holds'⟩
      · subst hb
        obtain ⟨x, memX, other, rest⟩ := another_of_not_inUse idle force kindY holds
        exact (keptIn_iff ..).2 ⟨x, stays x memX (by rwa [number] at other), rest⟩
      · exact (keptIn_iff ..).2 ⟨z', List.mem_map.2 ⟨z, mem, if_pos number⟩, kind.trans kindY, force', holds'⟩
    · exact (keptIn_iff ..).2 ⟨y, stays y mem same, kindY, force, holds⟩
  ranged rig all y mem kindY force := by
    obtain ⟨x, memX, rfl⟩ := List.mem_map.1 mem
    have memZ := List.mem_of_find?_eq_some found
    by_cases same : x.number = z'.number
    · rw [if_pos same] at *
      rcases ranged rig kindY force with new | ⟨old, box⟩
      · exact new
      · have := all z memZ (kind ▸ kindY) old
        rwa [Zone.ranged, ← box] at this
    · rw [if_neg same] at *
      exact all x memX kindY force
  overdue none_ all y mem kindY := by
    obtain ⟨x, memX, rfl⟩ := List.mem_map.1 mem
    have memZ := List.mem_of_find?_eq_some found
    by_cases same : x.number = z'.number
    · rw [if_pos same] at *
      exact overdue none_ (kind ▸ kindY) (all z memZ (kind ▸ kindY))
    · rw [if_neg same] at *
      exact all x memX kindY

/-- A record with a number that no other holds joins the table (R27). -/
theorem ZonesKept.insert {zs : List Zone} {z : Zone} (fresh : ∀ y ∈ zs, y.number ≠ z.number)
    (ranged : rigged = true → z.kind = .keepIn → Zone.ranged st z) (early : z.state ≠ .overdue) :
    ZonesKept st rigged ref zs (insertZone z zs) where
  ascending asc := Laws.insertZone_sorted z zs asc fresh
  kept b _ _ held := by
    obtain ⟨y, mem, rest⟩ := (keptIn_iff ..).1 held
    exact (keptIn_iff ..).2 ⟨y, (Laws.mem_insertZone ..).2 (.inr mem), rest⟩
  ranged rig all y mem kind force := by
    rcases (Laws.mem_insertZone ..).1 mem with rfl | mem
    · exact ranged rig kind
    · exact all y mem kind force
  overdue _ all y mem kind := by
    rcases (Laws.mem_insertZone ..).1 mem with rfl | mem
    · exact early
    · exact all y mem kind

theorem zonesKept_foldl {f : ZoneWork → Nat → ZoneWork}
    (h : ∀ w n, ZonesKept st rigged ref w.zones (f w n).zones) (l : List Nat) (w : ZoneWork) :
    ZonesKept st rigged ref w.zones (l.foldl f w).zones := by
  induction l generalizing w with
  | nil => exact .refl _
  | cons n rest ih => exact (h w n).trans (ih _)

/-! ## Step results, lapses and ticks (R30, R38 to R40) -/

/-- R30: an activation leaves every keep-in as it is. -/
theorem zonesKept_activateAll (box : Box) (zs : List Zone) : ZonesKept st rigged ref zs (activateAll box zs).zones := by
  have keepIn : ∀ z : Zone, (if activates box z then { z with state := .active } else z).kind = .keepIn →
      (if activates box z then { z with state := .active } else z) = z := fun z kind => by
    split at kind <;> simp_all [activates]
  have number : ∀ z : Zone, (if activates box z then { z with state := .active } else z).number = z.number := fun z => by
    split <;> rfl
  refine ⟨fun asc => ?_, fun b _ _ held => ?_, fun _ all y mem kind force => ?_, fun _ all y mem kind => ?_⟩
  · exact List.pairwise_map.2 (asc.imp fun less => by rwa [number, number])
  · obtain ⟨z, mem, kind, rest⟩ := (keptIn_iff ..).1 held
    have same : activates box z = false := by simp [activates, kind]
    exact (keptIn_iff ..).2 ⟨z, List.mem_map.2 ⟨z, mem, by simp [same]⟩, kind, rest⟩
  · obtain ⟨z, memZ, rfl⟩ := List.mem_map.1 mem
    rw [keepIn z kind] at *
    exact all z memZ kind force
  · obtain ⟨z, memZ, rfl⟩ := List.mem_map.1 mem
    rw [keepIn z kind] at *
    exact all z memZ kind

theorem zoneAt_number {zs : List Zone} {n : Nat} {z : Zone} (found : zoneAt zs n = some z) : z.number = n := by
  simpa using List.find?_some found

theorem zonesKept_resolveZone (box : Box) (w : ZoneWork) (n : Nat) :
    ZonesKept st rigged (some box) w.zones (resolveZone box w n).zones := by
  unfold resolveZone
  split
  · exact .refl _
  next z found =>
    split
    next resolves =>
      simp only [Bool.and_eq_true, Bool.not_eq_true', decide_eq_true_eq] at resolves
      have removed := ZonesKept.remove (st := st) (rigged := rigged) found fun _ => resolves.2
      rwa [← zoneAt_number found] at removed
    next => exact .refl _

/-- R30 and then R40. -/
theorem zonesKept_zoneStepWork (box : Box) (zs : List Zone) :
    ZonesKept st rigged (some box) zs (zoneStepWork box zs).zones :=
  (zonesKept_activateAll box zs).trans (zonesKept_foldl (zonesKept_resolveZone box) _ _)

/-- R39: a keep-in lapses where it is not in use, and one in use becomes OVERDUE. -/
theorem zonesKept_lapseZone {w : ZoneWork} {z : Zone} (found : zoneAt w.zones z.number = some z)  :
    ZonesKept st rigged ref w.zones (lapseZone ref w z).zones := by
  unfold lapseZone
  split
  next out => exact .remove found fun kind => by simp [out] at kind
  next kind =>
    dsimp only
    split
    next used =>
      have held : z.keepsIn = true := by
        unfold inUse at used
        split at used
        · exact absurd used (by simp)
        · simp only [Bool.and_eq_true] at used
          exact used.1.1
      have force : z.state = .active ∨ z.state = .overdue := by simpa [Zone.keepsIn, kind] using held
      exact .replace (z := z) found rfl (fun _ _ _ _ holds => .inr ⟨.inr rfl, holds⟩) (fun _ _ _ => .inr ⟨force, rfl⟩)
        fun none_ => by simp [inUse, none_] at used
    next idle => exact .remove found fun _ => by simpa using idle

theorem zoneAt_replaceZone {zs : List Zone} {z z' : Zone} (found : zoneAt zs z'.number = some z) :
    zoneAt (replaceZone z' zs) z'.number = some z' := by
  induction zs with
  | nil => simp [zoneAt] at found
  | cons x rest ih =>
    by_cases same : x.number = z'.number
    · simp [replaceZone, zoneAt, same]
    · simp only [zoneAt, List.find?_cons, beq_eq_false_iff_ne.2 same, replaceZone, List.map_cons, if_neg same] at *
      exact ih found

/-- R38: one record counts a second, and lapses at 0. -/
theorem zonesKept_tickZone (w : ZoneWork) (n : Nat) : ZonesKept st rigged ref w.zones (tickZone ref w n).zones := by
  unfold tickZone
  split
  · exact .refl _
  next z found =>
    split
    · exact .refl _
    next k _ =>
      extract_lets z' w'
      obtain rfl := zoneAt_number found
      have counted : ZonesKept st rigged ref w.zones w'.zones :=
        .replace (z := z) (z' := z') found rfl (fun _ _ _ force holds => .inr ⟨force, holds⟩) (fun _ _ force => .inr ⟨force, rfl⟩)
          fun _ _ => id
      split
      · exact counted.trans (zonesKept_lapseZone (zoneAt_replaceZone (z' := z') found))
      · exact counted

theorem zonesKept_tickWork (zs : List Zone) : ZonesKept st rigged ref zs (tickWork ref zs).zones :=
  zonesKept_foldl zonesKept_tickZone _ ⟨zs, [], []⟩

end Table

end Sys2Proof.Proofs
end

section
namespace Sys2Proof.Proofs
open Sys2Proof.Machine

/-! ## What the flight rests on, and the events that leave it alone

The invariants of the path generator read the settings, the zone table with its reference box, the path and whether the part
is rigged. Every command but SET, the servo step, the freeze, RIG_COMMIT, UNRIG and hard reset leaves these alone, or changes
the zone table as `ZonesKept` allows. -/

/-- The reference box of the zone table once the step result that stands there has been taken (R24). -/
def zoneRef (s : State) : Option Box :=
  match s.rigged, s.hands.stepZone with
  | true, some r => some r.box
  | _, _ => s.refBox

theorem zoneRef_settled {s : State} (h : s.hands.stepZone = none) : zoneRef s = s.refBox := by
  unfold zoneRef
  rw [h]
  cases s.rigged <;> rfl

theorem zoneRef_offline {s : State} (h : s.rigged = false) : zoneRef s = s.refBox := by
  unfold zoneRef
  rw [h]

theorem zoneRef_stands {s : State} {r : StepResult} (rigged : s.rigged = true) (h : s.hands.stepZone = some r) :
    zoneRef s = some r.box := by
  unfold zoneRef
  rw [rigged, h]

/-- An event that leaves the flight alone. -/
structure Quiet (s t : State) : Prop where
  settings : t.settings = s.settings
  path : t.path = s.path
  rigged : t.rigged = s.rigged
  ref : zoneRef t = zoneRef s
  zones : ZonesKept s.settings s.rigged (zoneRef s) s.zones t.zones

/-- An event that leaves the flight alone and ends no halt. -/
structure Steady (s t : State) : Prop extends Quiet s t where
  halted : s.carrier.mode.isHalted = true → t.carrier.mode.isHalted = true

theorem Quiet.trans {s t u : State} (h : Quiet s t) (g : Quiet t u) : Quiet s u where
  settings := g.settings.trans h.settings
  path := g.path.trans h.path
  rigged := g.rigged.trans h.rigged
  ref := g.ref.trans h.ref
  zones := h.zones.trans (by simpa only [h.settings, h.rigged, h.ref] using g.zones)

@[simp] theorem Steady.refl (s : State) : Steady s s := ⟨⟨rfl, rfl, rfl, rfl, .refl _⟩, id⟩

theorem Steady.trans {s t u : State} (h : Steady s t) (g : Steady t u) : Steady s u :=
  ⟨h.toQuiet.trans g.toQuiet, g.halted ∘ h.halted⟩

theorem steady_foldl {α : Type} (f : State → α → State) (h : ∀ s a, Steady s (f s a)) (l : List α) (s : State) :
    Steady s (l.foldl f s) := by
  induction l generalizing s with
  | nil => exact .refl s
  | cons a rest ih => exact (h s a).trans (ih _)

/-! ## The ways in which an event leaves the flight alone -/

section Ways

variable {s t : State}

/-- Every block but the zone table, carrier control and the path may change, and every hand-off but the step result at the
zone table. -/
theorem steady_blocks (s : State) (ms : List Mark) (q : MoveQueue) (te : Tension) (dr : Quad Drum) (wi : Wind)
    (bu : Bus) (ri sa : PortRec) (pe : Nat) (es : Bool) (ha : Hands) (pd : List Instr)
    (same : ha.stepZone = s.hands.stepZone) :
    Steady s ⟨s.settings, s.zones, s.refBox, ms, q, s.carrier, s.path, te, dr, wi, bu, ri, sa, pe, es, ha, pd⟩ :=
  ⟨⟨rfl, rfl, rfl, by simp only [zoneRef, same]; rfl, .refl _⟩, id⟩

@[simp] theorem steady_mk (s : State) (ms : List Mark) (q : MoveQueue) (te : Tension) (dr : Quad Drum) (wi : Wind)
    (bu : Bus) (ri sa : PortRec) (pe : Nat) (es : Bool) (pd : List Instr) :
    Steady s ⟨s.settings, s.zones, s.refBox, ms, q, s.carrier, s.path, te, dr, wi, bu, ri, sa, pe, es, s.hands, pd⟩ :=
  steady_blocks s _ _ _ _ _ _ _ _ _ _ _ _ rfl

@[simp] theorem steady_mk_hands (s : State) (ms : List Mark) (q : MoveQueue) (te : Tension) (dr : Quad Drum) (wi : Wind)
    (bu : Bus) (ri sa : PortRec) (pe : Nat) (es : Bool) (pd : List Instr) (sq sc sd : Option StepResult)
    (ws : List SlotWrite) (rs : List Raise) (fr : Bool) (fa : List Report) (wc : List Bool) (tr : List TravelHand)
    (en : List EndHand) (ch : List (List Nat)) (mr : List MarkReport) :
    Steady s ⟨s.settings, s.zones, s.refBox, ms, q, s.carrier, s.path, te, dr, wi, bu, ri, sa, pe, es,
      ⟨s.hands.stepZone, sq, sc, sd, ws, rs, fr, fa, wc, tr, en, ch, mr⟩, pd⟩ :=
  steady_blocks s _ _ _ _ _ _ _ _ _ _ _ _ rfl

theorem Steady.hands (h : Steady s t) (ha : Hands) (same : ha.stepZone = t.hands.stepZone := by rfl) :
    Steady s { t with hands := ha } := h.trans (steady_blocks t _ _ _ _ _ _ _ _ _ _ _ _ same)

@[simp] theorem Steady.told (h : Steady s t) (ns : List Notice) : Steady s (t.told ns) := h.trans (steady_mk t ..)

theorem Steady.notify (h : Steady s t) (n : Notice) : Steady s (t.notify n) := h.told [n]

@[simp] theorem Steady.setPort (h : Steady s t) (p : Port) (r : PortRec) : Steady s (t.setPort p r) := by
  cases p <;> exact h.trans (steady_mk t ..)

@[simp] theorem Steady.answer (h : Steady s t) (p : Port) (a : Answer) : Steady s (t.answer p a) := h.setPort ..

@[simp] theorem Steady.close (h : Steady s t) (p : Port) (tag : Byte) (st : Status) (d1 d2 : Nat) :
    Steady s (t.close p tag st d1 d2) := h.answer ..

@[simp] theorem Steady.closeItem (h : Steady s t) (p : Port) (tag : Byte) (i : Item) (st : Status) (d1 d2 : Nat) :
    Steady s (t.closeItem p tag i st d1 d2) := h.answer ..

@[simp] theorem Steady.serve (h : Steady s t) (p : Port) (tag : Byte) (work : Work) : Steady s (t.serve p tag work) :=
  h.setPort ..

@[simp] theorem Steady.handChanges (h : Steady s t) (ns : List Nat) : Steady s (t.handChanges ns) := by
  cases ns
  · exact h
  · exact h.hands _

/-- Carrier control's record may change where the part stays rigged or OFFLINE and no halt ends. -/
theorem Steady.carrier (h : Steady s t) (k : Carrier) (ha : Hands) (rigged : (k.mode != .offline) = t.rigged)
    (halted : t.carrier.mode.isHalted = true → k.mode.isHalted = true) (same : ha.stepZone = t.hands.stepZone := by rfl) :
    Steady s { t with carrier := k, hands := ha } := by
  have rig : State.rigged { t with carrier := k, hands := ha } = t.rigged := rigged
  exact h.trans ⟨⟨rfl, rfl, rig, by simp only [zoneRef, rig, same], .refl _⟩, halted⟩

/-- The table is as an event of the zone table leaves it. -/
theorem Steady.zoneTable (h : Steady s t) (zs : List Zone)
    (kept : ZonesKept t.settings t.rigged (zoneRef t) t.zones zs) : Steady s { t with zones := zs } :=
  h.trans ⟨⟨rfl, rfl, rfl, rfl, kept⟩, id⟩

end Ways

/-! ## Requests -/

theorem steady_arrive (s : State) (p : Port) (c : Instr) : Steady s (s.arrive p c) := by
  rw [arrive_eq]
  exact (Steady.refl s).setPort ..

theorem steady_turnAway (s : State) (p : Port) (tag : Byte) (c : Instr) : Steady s (s.turnAway p tag c) := by
  rcases turnAway_cases s p tag c with h | h | ⟨_, -, -, -, h⟩ <;> rw [h]
  · exact .refl s
  · exact (Steady.refl s).setPort ..
  · exact (Steady.refl s).close ..

/-- A request leaves the flight alone when its owner's meaning does. -/
theorem steady_take (s : State) (p : Port) (tag : Byte) (c : Instr) (owner : State → State)
    (h : ∀ t, Steady t (owner t)) : Steady s (s.take p tag c owner) := by
  unfold State.take
  split
  · exact (steady_arrive s p c).trans (h _)
  · exact steady_turnAway s p tag c

/-- A request before which a block takes what stands. -/
theorem steady_take_after (s : State) (p : Port) (tag : Byte) (c : Instr) {ready owner : State → State}
    (hr : ∀ t, Steady t (ready t)) (ho : ∀ t, Steady t (owner t)) :
    Steady s (s.take p tag c (fun t => owner (ready t))) :=
  steady_take s p tag c _ fun t => (hr t).trans (ho _)

/-! ## The mark table (chapter 3) -/

@[simp] theorem Steady.reevaluateMarks {s t : State} (h : Steady s t) : Steady s (reevaluateMarks t) := by
  refine h.trans ?_
  simp only [Machine.reevaluateMarks]
  split <;> simp

theorem steady_takeChangeReport (s : State) : Steady s (takeChangeReport s) := by
  unfold takeChangeReport
  split
  · exact .refl s
  · exact ((Steady.refl s).hands _).reevaluateMarks

theorem steady_settleMarks (s : State) : Steady s (settleMarks s) := steady_foldl _ (fun t _ => steady_takeChangeReport t) _ s

theorem steady_storeMark (s : State) (p : Port) (tag : Byte) (n : Nat) (x : Vec3) (cap : Nat) (label : List Byte) :
    Steady s (storeMark s p tag n x cap label) := by
  simp only [storeMark]
  (repeat' split) <;> simp

theorem steady_markSet (p : Port) (tag : Byte) (b : MarkSetBody) (s : State) : Steady s (markSet p tag b s) := by
  simp only [markSet]
  (repeat' split) <;> simp [steady_storeMark]

theorem steady_markHere (p : Port) (tag : Byte) (b : MarkHereBody) (s : State) : Steady s (markHere p tag b s) := by
  simp only [markHere]
  (repeat' split) <;> simp [steady_storeMark]

theorem steady_markRetire (p : Port) (tag : Byte) (n : Nat) (s : State) : Steady s (markRetire p tag n s) := by
  simp only [markRetire]
  (repeat' split) <;> simp

theorem steady_markRead (p : Port) (tag : Byte) (n : Nat) (s : State) : Steady s (markRead p tag n s) := by
  unfold markRead
  (repeat' split) <;> simp

theorem steady_markList (p : Port) (tag : Byte) (n : Nat) (s : State) : Steady s (markList p tag n s) := by
  unfold markList
  split <;> simp

end Sys2Proof.Proofs
end

section
namespace Sys2Proof.Proofs
open Sys2Proof.Machine

/-! ## The zone table (chapter 2): the published step result -/

theorem Steady.applyZoneWork {s t : State} (h : Steady s t) (w : ZoneWork)
    (kept : ZonesKept t.settings t.rigged (zoneRef t) t.zones w.zones) : Steady s (t.applyZoneWork w) := by
  rw [State.applyZoneWork, notifyAll_told]
  exact ((h.zoneTable w.zones kept).told _).handChanges _

/-- R24, R30, R40: the step result becomes the reference box, and the zones act on it. -/
theorem steady_takeZoneResult (s : State) : Steady s (takeZoneResult s) := by
  unfold takeZoneResult
  split
  · exact .refl s
  next r stands =>
    dsimp only
    split
    next rigged =>
      have ref : zoneRef s = some r.box := zoneRef_stands rigged stands
      have taken : Steady s { s with refBox := some r.box, hands := { s.hands with stepZone := none } } :=
        ⟨⟨rfl, rfl, rfl, (zoneRef_settled rfl).trans ref.symm, .refl _⟩, id⟩
      refine taken.applyZoneWork _ ?_
      rw [taken.ref, ref]
      exact zonesKept_zoneStepWork r.box s.zones
    next off =>
      have off' : s.rigged = false := Bool.eq_false_iff.2 off
      exact ⟨⟨rfl, rfl, rfl, (zoneRef_offline (s := { s with hands := { s.hands with stepZone := none } }) off').trans
        (zoneRef_offline off').symm, .refl _⟩, id⟩

theorem steady_zoneReady (s : State) : Steady s (zoneReady s) :=
  ((steady_settleMarks s).trans (steady_takeZoneResult _)).trans (steady_settleMarks _)

theorem handChanges_stepZone (s : State) (ns : List Nat) : (s.handChanges ns).hands.stepZone = s.hands.stepZone := by
  cases ns <;> rfl

theorem takeChangeReport_stepZone (s : State) : (takeChangeReport s).hands.stepZone = s.hands.stepZone := by
  unfold takeChangeReport
  split
  · rfl
  · simp only [reevaluateMarks]
    split <;> simp

theorem settleMarks_stepZone (s : State) : (settleMarks s).hands.stepZone = s.hands.stepZone := by
  unfold settleMarks
  generalize s.hands.changes = reports
  induction reports generalizing s with
  | nil => rfl
  | cons _ rest ih => exact (ih _).trans (takeChangeReport_stepZone s)

theorem takeZoneResult_stepZone (s : State) : (takeZoneResult s).hands.stepZone = none := by
  unfold takeZoneResult
  split
  · assumption
  · dsimp only
    split
    · rw [State.applyZoneWork, handChanges_stepZone, notifyAll_told]
      rfl
    · rfl

theorem zoneReady_stepZone (s : State) : (zoneReady s).hands.stepZone = none := by
  rw [zoneReady, settleMarks_stepZone, takeZoneResult_stepZone]

/-- R124: an event at the zone table is taken after the step result that stands there. -/
theorem steady_zoneEvent {event : State → State} (h : ∀ t, t.hands.stepZone = none → Steady t (event t)) (s : State) :
    Steady s (event (zoneReady s)) := (steady_zoneReady s).trans (h _ (zoneReady_stepZone s))

theorem steady_zoneRequest (s : State) (p : Port) (tag : Byte) (c : Instr) {owner : State → State}
    (h : ∀ t, t.hands.stepZone = none → Steady t (owner t)) : Steady s (s.take p tag c (fun t => owner (zoneReady t))) :=
  steady_take s p tag c _ (steady_zoneEvent h)

theorem ranged_of_keepInFault {s : State} {z : Zone} (passes : keepInFault s z = none) (rigged : s.rigged = true) :
    Zone.ranged s.settings z := by
  unfold keepInFault at passes
  split at passes
  · exact absurd passes (by simp)
  · rw [if_pos rigged, Option.map_eq_none_iff, lineRangeFault, winches_find?_eq_none_iff] at passes
    exact fun w => by simpa using passes w

/-! ## The zone table: ticks and requests (R27 to R44) -/

section Settled

variable {s : State} (settled : s.hands.stepZone = none)

include settled

theorem steady_zoneSecondTick : Steady s (s.applyZoneWork (tickWork s.refBox s.zones)) :=
  (Steady.refl s).applyZoneWork _ (zoneRef_settled settled ▸ zonesKept_tickWork s.zones)

theorem steady_zoneLapse (n : Nat) : Steady s (zoneLapse n s) := by
  unfold zoneLapse
  split
  · exact .refl s
  next z found =>
    split
    · obtain rfl := zoneAt_number found
      refine (Steady.refl s).applyZoneWork _ ?_
      rw [zoneRef_settled settled]
      exact zonesKept_lapseZone (w := ⟨s.zones, [], []⟩) found
    · exact .refl s

theorem steady_zoneRetire (p : Port) (tag : Byte) (n : Nat) : Steady s (zoneRetire p tag n s) := by
  unfold zoneRetire
  split
  · simp
  next z found =>
    split
    · simp
    split
    · simp
    split
    · simp
    next idle =>
      have removed : Steady s { s with zones := removeZone n s.zones } := (Steady.refl s).zoneTable _
        (.remove found fun kind => by
          rw [zoneRef_settled settled]
          simpa [kind] using idle)
      dsimp only
      split
      · exact ((removed.notify _).handChanges _).close ..
      · exact (removed.notify _).close ..

/-- R31 to R33: the edited record keeps its number and kind; it is in the range of the lines, and one in use still holds the
reference box. -/
theorem zonesKept_edit {z z' : Zone} {keep : Bool} {state : ZoneState} (found : zoneAt s.zones z'.number = some z)
    (kind : z'.kind = z.kind) (judged : editState s z z' keep = .ok state) :
    ZonesKept s.settings s.rigged (zoneRef s) s.zones (replaceZone { z' with state := state } s.zones) := by
  rw [zoneRef_settled settled]
  unfold editState at judged
  split at judged
  next out =>
    have other : z'.kind ≠ .keepIn := by simp [kind, out]
    exact .replace (z' := { z' with state := state }) found kind (fun _ _ k => absurd (kind.trans k) other)
      (fun _ k => absurd k other) fun _ k => absurd (kind.trans k) other
  next in_ =>
    split at judged
    · exact absurd judged (by simp)
    next passes =>
      split at judged
      · exact absurd judged (by simp)
      next holds =>
        obtain rfl := Except.ok.inj judged
        have force : z.state = .active ∨ z.state = .overdue →
            (if (z.state = .overdue && !keep) = true then ZoneState.active else z.state) = .active ∨
              (if (z.state = .overdue && !keep) = true then ZoneState.active else z.state) = .overdue := fun old => by
          split
          · exact .inl rfl
          · exact old
        refine .replace (z' := { z' with state := _ }) found kind (fun b ref _ old _ => ?_)
          (fun rigged _ _ => .inl (ranged_of_keepInFault passes rigged)) fun _ _ early => ?_
        · cases used : inUse s.refBox s.zones z with
          | false => exact .inl rfl
          | true =>
            refine .inr ⟨force old, ?_⟩
            rw [used, ref] at holds
            have contained : z'.shrunk.contains b = true := by simpa using holds
            exact contained
        · dsimp only
          split
          · simp
          · exact early

theorem steady_zoneEdit (p : Port) (tag : Byte) (b : ZoneEditBody) : Steady s (zoneEdit p tag b s) := by
  unfold zoneEdit
  split
  · simp
  next z found =>
    split
    · simp
    split
    · simp
    split
    · simp
    split
    · simp
    next life _ =>
      dsimp only
      split
      · simp
      next state judged =>
        have same := zoneAt_number found
        have edited := (Steady.refl s).zoneTable _ (zonesKept_edit settled (by simpa [same] using found) (by rfl) judged)
        simp only [admitEdit]
        split
        · exact ((edited.notify _).handChanges _).close ..
        · exact (edited.notify _).close ..

end Settled

theorem steady_relock (p : Port) (tag : Byte) (z : Zone) (lock : ZoneLock) (reason : ZoneReason) (s : State) (n : Nat)
    (found : zoneAt s.zones n = some z) : Steady s (relock p tag z lock reason s) := by
  obtain rfl := zoneAt_number found
  have locked : Steady s { s with zones := replaceZone { z with lock := lock } s.zones } :=
    (Steady.refl s).zoneTable _ (.replace (z' := { z with lock := lock }) found rfl
      (fun _ _ _ force holds => .inr ⟨force, holds⟩) (fun _ _ force => .inr ⟨force, rfl⟩) fun _ _ => id)
  exact (locked.notify _).close ..

theorem steady_zoneLock (p : Port) (tag : Byte) (n : Nat) (s : State) : Steady s (zoneLock p tag n s) := by
  unfold zoneLock
  split
  · simp
  · split
    · simp
    · split <;> simp [steady_relock _ _ _ _ _ _ _ ‹_›]

theorem steady_zoneUnlock (p : Port) (tag : Byte) (n : Nat) (s : State) : Steady s (zoneUnlock p tag n s) := by
  unfold zoneUnlock
  split
  · simp
  · split
    · simp
    · split <;> simp [steady_relock _ _ _ _ _ _ _ ‹_›]

theorem steady_zoneFix (p : Port) (tag : Byte) (n : Nat) (s : State) : Steady s (zoneFix p tag n s) := by
  unfold zoneFix
  split
  · simp
  · split
    · simp
    · (repeat' split) <;> simp [steady_relock _ _ _ _ _ _ _ ‹_›]

theorem steady_zoneRead (p : Port) (tag : Byte) (n : Nat) (s : State) : Steady s (zoneRead p tag n s) := by
  unfold zoneRead
  split <;> simp

theorem steady_zoneList (p : Port) (tag : Byte) (filter code : Nat) (s : State) :
    Steady s (zoneList p tag filter code s) := by
  unfold zoneList
  split <;> simp

theorem steady_admitZone (p : Port) (tag : Byte) (margin : Nat) (z : Zone) (s : State)
    (fresh : freeNumber s.zones = some z.number) (ranged : s.rigged = true → z.kind = .keepIn → Zone.ranged s.settings z)
    (early : z.state ≠ .overdue) : Steady s (admitZone p tag margin z s) := by
  obtain ⟨-, -, free, -⟩ := (freeNumber_eq_some_iff ..).1 fresh
  have added := (Steady.refl s).zoneTable _ (.insert free ranged early)
  simp only [admitZone]
  split
  · exact ((added.notify _).handChanges _).close ..
  · exact (added.notify _).close ..

theorem steady_zoneAdd (p : Port) (tag : Byte) (b : ZoneAddBody) (s : State) : Steady s (zoneAdd p tag b s) := by
  unfold zoneAdd
  split
  · simp
  split
  · simp
  split
  · simp
  split
  · simp
  split
  · simp
  next n free =>
    dsimp only
    split
    · split
      · simp
      next passes =>
        exact steady_admitZone _ _ _ _ _ free (fun rigged _ => ranged_of_keepInFault passes rigged) (by simp)
    · split
      · exact steady_admitZone _ _ _ _ _ free (fun _ kind => by simp at kind) (by simp)
      · exact steady_admitZone _ _ _ _ _ free (fun _ kind => by simp at kind) (by simp)

end Sys2Proof.Proofs
end

section
namespace Sys2Proof.Proofs
open Sys2Proof.Machine

/-! ## The move queue (chapter 4) -/

@[simp] theorem Steady.handEnd {s t : State} (h : Steady s t) (reason : EndReason) : Steady s (t.handEnd reason) :=
  h.trans (steady_mk_hands t ..)

@[simp] theorem Steady.applyQueueWork {s t : State} (h : Steady s t) (w : QueueWork) : Steady s (t.applyQueueWork w) := by
  have told : Steady s (({ t with queue := w.q } : State).notifyAll (w.news.filterMap w.notice)) := by
    rw [notifyAll_told]
    exact (h.trans (steady_mk t ..)).told _
  unfold State.applyQueueWork
  dsimp only
  split
  · exact told
  · exact told.handEnd _

theorem steady_takeMarkReport (s : State) : Steady s (takeMarkReport s) := by
  unfold takeMarkReport
  split <;> simp

theorem steady_queueReady (s : State) : Steady s (queueReady s) :=
  (steady_settleMarks s).trans (steady_foldl _ (fun t _ => steady_takeMarkReport t) _ _)

theorem steady_travelBegun (n : Nat) (s : State) : Steady s (travelBegun n s) := (Steady.refl s).applyQueueWork _

theorem steady_travelEnded (s : State) : Steady s (travelEnded s) := (Steady.refl s).applyQueueWork _

theorem steady_cueEdge (s : State) : Steady s (cueEdge s) := by
  unfold cueEdge
  (repeat' split) <;> simp

theorem steady_takeQueueResult (s : State) : Steady s (takeQueueResult s) := by
  unfold takeQueueResult
  split
  · exact .refl s
  · have ready := (steady_mk_hands s ..).trans (steady_queueReady { s with hands := { s.hands with stepQueue := none } })
    dsimp only
    split
    · exact ready.applyQueueWork _
    · exact ready

theorem steady_dwellEnd (s : State) : Steady s (dwellEnd s) := by
  unfold dwellEnd
  (repeat' split) <;> simp

theorem steady_moveAdd (p : Port) (tag : Byte) (b : MoveAddBody) (s : State) : Steady s (moveAdd p tag b s) := by
  simp only [moveAdd, admitMove]
  (repeat' split) <;> simp

theorem steady_moveCancel (p : Port) (tag : Byte) (id : Nat) (s : State) : Steady s (moveCancel p tag id s) := by
  unfold moveCancel
  (repeat' split) <;> simp

theorem steady_queueClear (p : Port) (tag : Byte) (s : State) : Steady s (queueClear p tag s) := by
  have emptied : Steady s { s with queue := { s.queue with entries := [] } } := steady_mk s ..
  simp only [queueClear]
  split
  · simp
  · split
    · exact ((emptied.notify _).handEnd _).close ..
    · exact (emptied.notify _).close ..

/-! ## Carrier control: reports and hand-offs (R90, R98 to R105) -/

section Carrier

variable {s t : State}

/-- The record of carrier control while rigged: a mode that is not OFFLINE follows, and no halt ends. -/
theorem Steady.toCarrier (h : Steady s t) (k : Carrier) (ha : Hands) (old : t.carrier.mode ≠ .offline)
    (new : k.mode ≠ .offline) (halted : t.carrier.mode.isHalted = true → k.mode.isHalted = true)
    (same : ha.stepZone = t.hands.stepZone := by rfl) : Steady s { t with carrier := k, hands := ha } :=
  h.carrier k ha (by rw [State.rigged, bne_iff_ne.2 old, bne_iff_ne.2 new]) halted same

/-- Another record of carrier control in the same mode. -/
theorem Steady.sameMode (h : Steady s t) (k : Carrier) (ha : Hands) (same : ha.stepZone = t.hands.stepZone := by rfl)
    (mode : k.mode = t.carrier.mode := by rfl) : Steady s { t with carrier := k, hands := ha } :=
  h.carrier k ha (by rw [mode]; rfl) (by rw [mode]; exact id) same

/-- A change of mode between two modes that are no halt, or to one that is a halt. -/
theorem Steady.changeMode (h : Steady s t) (m : Mode) (reason : ModeReason) (q : Option EndReason)
    (old : t.carrier.mode ≠ .offline) (new : m ≠ .offline) (halted : t.carrier.mode.isHalted = true → m.isHalted = true) :
    Steady s (t.changeMode m reason q) := by
  rw [changeMode_told]
  exact (h.toCarrier (t.carrier.toMode m) t.hands old (by simpa using new) (by simpa using halted)).told _

end Carrier

/-- R99 to R105: a report brings a halt or leaves one. -/
theorem steady_raiseCause (r : Report) (s : State) : Steady s (raiseCause r s) := by
  by_cases ignored : s.carrier.mode = .offline ∨ r.cause ∈ s.carrier.causes
  · rw [raiseCause_ignored r s ignored]
    exact .refl s
  obtain ⟨rigged, fresh⟩ := not_or.1 ignored
  have same := Steady.refl s
  cases urgent : r.cause.immediate with
  | false =>
    by_cases halted : s.carrier.mode.isHalted = true
    · rw [raiseCause_joins r s fresh halted urgent]
      exact (same.sameMode _ _).told _
    · by_cases parked : s.carrier.mode = .parked
      · rw [raiseCause_parked r s fresh parked urgent]
        exact (same.toCarrier _ _ rigged (by simp) fun _ => rfl).told _
      · have mode : s.carrier.mode = .hold ∨ s.carrier.mode = .steer ∨ s.carrier.mode = .travel := by
          revert rigged halted parked
          rcases s.carrier.mode with _ | _ | _ | _ | _ | _ <;> simp [Mode.isHalted]
        rw [raiseCause_stops r s fresh mode urgent]
        exact (same.toCarrier _ _ rigged (by simp) fun _ => rfl).told _
  | true =>
    by_cases stopped : s.carrier.mode = .halted .stopped
    · by_cases loses : r.cause = .tracking ∧ s.carrier.poseLost = false
      · rw [raiseCause_tracking r s fresh stopped loses.1 loses.2]
        exact (same.sameMode _ _).told _
      · rw [raiseCause_again r s fresh stopped urgent (by simpa [or_iff_not_imp_left] using loses)]
        exact (same.sameMode _ _).told _
    · rw [raiseCause_immediate r s fresh rigged stopped urgent]
      exact (same.toCarrier _ _ rigged (by simp) fun _ => rfl).told _

/-- R90, R103: a controlled stop that ends at rest stays a halt. -/
theorem steady_carrierStep (r : StepResult) (s : State) : Steady s (carrierStep r s) := by
  have stored : Steady s { s with carrier := { s.carrier with
      lastAtRest := r.atRest, steerAge := min (s.carrier.steerAge + 1) 50 } } := (Steady.refl s).sameMode _ _
  unfold carrierStep
  dsimp only
  split
  next stops =>
    have mode : s.carrier.mode = .halted .stopping := by simpa using (Bool.and_eq_true_iff.1 stops).1
    exact (stored.hands { s.hands with raises := s.hands.raises ++ [.entry] }).changeMode _ _ _ (by simp [mode]) (by simp)
      fun _ => rfl
  next => exact stored

theorem steady_takeCarrierResult (s : State) : Steady s (takeCarrierResult s) := by
  unfold takeCarrierResult
  split
  · exact .refl s
  · dsimp only
    split
    · exact (steady_mk_hands s ..).trans (steady_carrierStep _ _)
    · exact steady_mk_hands s ..

theorem steady_carrierReady (s : State) : Steady s (carrierReady s) := by
  unfold carrierReady
  split
  · exact .refl s
  · exact .refl s
  all_goals exact steady_takeCarrierResult s

theorem steady_estopActive (level : Bool) (s : State) : Steady s (estopActive level s) := by
  simp only [estopActive]
  split
  · exact (steady_mk s ..).trans ((steady_carrierReady _).trans (steady_raiseCause _ _))
  · exact steady_mk s ..

theorem steady_halt (p : Port) (tag : Byte) (s : State) : Steady s (Machine.halt p tag s) := by
  unfold Machine.halt
  split
  · simp
  · exact ((Steady.refl s).close ..).trans (steady_raiseCause _ _)

theorem steady_endTravel (h : EndHand) (s : State) : Steady s (endTravel h s) := by
  unfold endTravel
  split
  next acts =>
    have mode : s.carrier.mode = .travel := by simpa using (Bool.and_eq_true_iff.1 acts).2
    exact (Steady.refl s).changeMode _ _ _ (by simp [mode]) (by simp) (by simp [mode, Mode.isHalted])
  next => exact .refl s

theorem steady_windHoldChange (hold : Bool) (s : State) : Steady s (windHoldChange hold s) := by
  have mirrored : Steady s { s with carrier := { s.carrier with windMirror := hold } } := (Steady.refl s).sameMode _ _
  have grounded : s.carrier.mode.isHalted = false → s.carrier.mode ≠ .offline →
      Steady s (State.changeMode { s with carrier := { s.carrier with windMirror := hold } } .hold .wind) :=
    fun flies rigged => mirrored.changeMode _ _ _ rigged (by simp) (by simp [flies])
  unfold windHoldChange
  dsimp only
  split
  · exact .refl s
  · split
    · split
      next steer => exact grounded (by rw [steer]; rfl) (by simp [steer])
      next travel => exact (grounded (by rw [travel]; rfl) (by simp [travel])).hands _
      · exact mirrored
    · exact mirrored

/-! ## Carrier control: requests (R73, R81, R92 to R97) -/

/-- R89: a request accepted in a mode that is no halt and not OFFLINE, which it changes for another. -/
theorem steady_accepted (s : State) (p : Port) (tag : Byte) (m : Mode) (reason : ModeReason)
    (rigged : s.carrier.mode ≠ .offline) (flies : s.carrier.mode.isHalted = false) (new : m ≠ .offline) :
    Steady s ((s.close p tag .ok 0 0).changeMode m reason) :=
  ((Steady.refl s).close ..).changeMode _ _ _ (by rwa [close_carrier]) new (by simp [close_carrier, flies])

theorem steady_run (p : Port) (tag : Byte) (s : State) : Steady s (Machine.run p tag s) := by
  simp only [Machine.run]
  split
  · simp
  split
  · simp
  next mode =>
    have hold : s.carrier.mode = .hold := not_not.1 mode
    split
    · simp
    split
    · simp
    split
    · simp
    have counted : Steady s { s with carrier := { s.carrier with begun := s.carrier.begun + 1 } } :=
      (Steady.refl s).sameMode _ _
    exact (counted.trans (steady_accepted _ p tag .travel .run (by simp [hold]) (by simp [hold, Mode.isHalted]) (by simp))).hands _

theorem steady_stop (p : Port) (tag : Byte) (s : State) : Steady s (Machine.stop p tag s) := by
  unfold Machine.stop
  split
  next mode => exact (steady_accepted s p tag .hold .stop (by simp [mode]) (by simp [mode, Mode.isHalted]) (by simp)).hands _
  next mode => exact steady_accepted s p tag .hold .stop (by simp [mode]) (by simp [mode, Mode.isHalted]) (by simp)
  next => simp

theorem steady_takeStick (p : Port) (tag : Byte) (s : State) : Steady s (Machine.takeStick p tag s) := by
  simp only [Machine.takeStick]
  split
  · simp
  split
  · simp
  next mode =>
    have hold : s.carrier.mode = .hold := not_not.1 mode
    split
    · simp
    split
    · simp
    · have zeroed : Steady s { s with carrier := { s.carrier with steer := Vec.zero, steerAge := 50 } } :=
        (Steady.refl s).sameMode _ _
      exact zeroed.trans (steady_accepted _ p tag .steer .stickTaken (by simp [hold]) (by simp [hold, Mode.isHalted]) (by simp))

theorem steady_steer (p : Port) (tag : Byte) (v : Vec3) (s : State) : Steady s (Machine.steer p tag v s) := by
  unfold Machine.steer
  split
  · simp
  split
  · simp
  · exact (Steady.refl s).sameMode _ _

theorem steady_releaseStick (p : Port) (tag : Byte) (s : State) : Steady s (Machine.releaseStick p tag s) := by
  unfold Machine.releaseStick
  split
  · simp
  split
  · simp
  next mode =>
    have steer : s.carrier.mode = .steer := not_not.1 mode
    exact steady_accepted s p tag .hold .stickReleased (by simp [steer]) (by simp [steer, Mode.isHalted]) (by simp)

theorem steady_park (p : Port) (tag : Byte) (s : State) : Steady s (Machine.park p tag s) := by
  unfold Machine.park
  split
  · simp
  next mode =>
    have hold : s.carrier.mode = .hold := not_not.1 mode
    split
    · simp
    · exact steady_accepted s p tag .parked .park (by simp [hold]) (by simp [hold, Mode.isHalted]) (by simp)

theorem steady_unpark (p : Port) (tag : Byte) (s : State) : Steady s (Machine.unpark p tag s) := by
  unfold Machine.unpark
  split
  · simp
  next mode =>
    have parked : s.carrier.mode = .parked := not_not.1 mode
    exact steady_accepted s p tag .hold .unpark (by simp [parked]) (by simp [parked, Mode.isHalted]) (by simp)

/-- No halt is OFFLINE. -/
theorem halted_rigged {s : State} (h : s.carrier.mode.isHalted = true) : s.rigged = true :=
  rigged_of_mode fun mode => by simp [mode, Mode.isHalted] at h

/-- R108, R109: an accepted CLEAR_HALT ends the halt, and leaves the flight alone. -/
theorem quiet_clearHalt (p : Port) (tag : Byte) (s : State) : Quiet s (Machine.clearHalt p tag s) := by
  have refused : ∀ status d1 d2, Quiet s (s.close p tag status d1 d2) := fun _ _ _ => ((Steady.refl s).close ..).toQuiet
  unfold Machine.clearHalt
  split
  · exact refused ..
  split
  · exact refused ..
  next halted =>
    split
    · exact refused ..
    split
    · exact refused ..
    split
    · exact refused ..
    · have rigged : s.rigged = true := halted_rigged (by simpa using halted)
      have cleared : Quiet s { s with carrier := { s.carrier.toMode .hold with causes := [], first := none } } := by
        have rig : State.rigged { s with carrier := { s.carrier.toMode .hold with causes := [], first := none } } = true := by
          simp [State.rigged]
        exact ⟨rfl, rfl, rig.trans rigged.symm, by simp only [zoneRef, rig, rigged], .refl _⟩
      simp only [acceptClear, modeNotice_told]
      exact cleared.trans ((((Steady.refl _).close ..).notify _).told _).toQuiet

end Sys2Proof.Proofs
end

section
namespace Sys2Proof.Proofs
open Sys2Proof.Machine

/-! ## Drum counters and wind (R147 to R154) -/

theorem steady_encoderTransition (w : Winch) (levels : Levels) (s : State) : Steady s (encoderTransition w levels s) := by
  have turned : Steady s { s with drums := s.drums.set w ((s.drums.get w).turn levels) } := steady_mk s ..
  unfold encoderTransition
  dsimp only
  split
  · exact turned.hands _
  · exact turned

theorem steady_trackWinch (lengths : Quad Int) (s : State) (w : Winch) : Steady s (trackWinch lengths s w) := by
  have tracked : Steady s { s with drums := s.drums.set w (trackDrum s.settings.trackTol (s.settings.drumScale.get w)
    (lengths.get w) (s.drums.get w)) } := steady_mk s ..
  unfold trackWinch
  dsimp only
  split
  · exact tracked.hands _
  · exact tracked

theorem steady_drumStep (s : State) : Steady s (drumStep s) := by
  unfold drumStep
  split
  · exact steady_mk s ..
  · split
    · exact .refl s
    · exact steady_foldl _ (steady_trackWinch _) _ s

theorem steady_takeDrumResult (s : State) : Steady s (takeDrumResult s) := by
  unfold takeDrumResult
  split
  · exact .refl s
  · dsimp only
    split
    · exact (steady_mk_hands s ..).trans (steady_drumStep _)
    · exact steady_mk_hands s ..

theorem steady_windSecondTick (s : State) : Steady s (windSecondTick s) := by
  unfold windSecondTick
  extract_lets speed hold s1
  have closed : Steady s s1 := steady_mk s ..
  split
  · exact closed
  · exact (closed.notify _).hands _

/-! ## Lanes and winches (R129 to R141) -/

section Lanes

variable {s t : State}

theorem Steady.setLane (h : Steady s t) (l : Lane) (r : LaneRec) : Steady s (t.setLane l r) := h.trans (steady_mk t ..)

theorem Steady.setWinch (h : Steady s t) (w : Winch) (r : WinchRec) : Steady s (t.setWinch w r) := h.trans (steady_mk t ..)

theorem Steady.laneNotice (h : Steady s t) (l : Lane) (reason : LaneReason) (previous : LaneState) (n : Nat) :
    Steady s (t.laneNotice l reason previous n) := h.notify _

theorem Steady.formTensionCap (h : Steady s t) : Steady s (formTensionCap t) := by
  unfold Machine.formTensionCap
  split
  · exact h.trans (steady_mk t ..)
  · exact h

end Lanes

theorem steady_reformWinch (s : State) (w : Winch) : Steady s (reformWinch s w) := (Steady.refl s).setWinch ..

theorem steady_protectWinch (s : State) (w : Winch) : Steady s (protectWinch s w) := by
  have counted : ∀ r, Steady s (s.setWinch w r) := (Steady.refl s).setWinch w
  unfold protectWinch
  dsimp only
  split
  · split <;> split
    · exact ((counted _).hands _).hands _
    · exact (counted _).hands _
    · exact (counted _).hands _
    · exact counted _
  · exact .refl s

theorem steady_outputUpdate (s : State) (w : Winch) (c : Cell) (v : Int) : Steady s (outputUpdate s w c v) :=
  ((((Steady.refl s).setWinch w _).trans (steady_reformWinch _ w)).trans (steady_protectWinch _ w)).formTensionCap

theorem steady_freshnessUpdate (s : State) (w : Winch) : Steady s (freshnessUpdate s w) := by
  have formed := (steady_reformWinch s w).formTensionCap
  unfold freshnessUpdate
  dsimp only
  split
  · exact formed.hands _
  · exact formed

theorem steady_freshnessOf (s : State) (mapping : Option CellName) : Steady s (freshnessOf s mapping) := by
  cases mapping with
  | none => exact .refl s
  | some m => exact steady_freshnessUpdate s m.winch

theorem steady_closeCheckAt (s : State) (p : Port) (l : Lane) (status : Status) (detail2 : Nat) :
    Steady s (closeCheckAt s p l status detail2) := by
  unfold closeCheckAt
  split
  · exact ((Steady.refl s).setPort ..).close ..
  · exact .refl s

theorem steady_closeCheck (s : State) (l : Lane) (status : Status) (detail2 : Nat) :
    Steady s (closeCheck s l status detail2) := by
  unfold closeCheck
  split
  · exact steady_closeCheckAt ..
  · split
    · exact steady_closeCheckAt ..
    · exact .refl s

theorem steady_failCheck (s : State) (l : Lane) (mark : Nat) : Steady s (failCheck s l mark) :=
  (((Steady.refl s).setLane ..).laneNotice ..).trans (steady_closeCheck ..)

theorem steady_checkSample (s : State) (l : Lane) (word : BitVec 16) : Steady s (checkSample s l word) := by
  unfold checkSample
  dsimp only
  split
  · split
    · exact (((Steady.refl s).setLane ..).laneNotice ..).trans (steady_closeCheck ..)
    · exact (Steady.refl s).setLane ..
  · exact steady_failCheck s l 0

theorem steady_historySample (s : State) (l : Lane) (word : BitVec 16) : Steady s (historySample s l word) := by
  unfold historySample
  extract_lets r st pushed r1 v s1
  have delivered : Steady s s1 := (Steady.refl s).setLane ..
  split
  · split
    · exact delivered.trans (steady_outputUpdate ..)
    · exact delivered
  · exact (Steady.refl s).setLane ..

theorem steady_restoreLane (s : State) (l : Lane) : Steady s (restoreLane s l) :=
  ((Steady.refl s).setLane ..).laneNotice ..

theorem steady_sampleArrival (l : Lane) (word : BitVec 16) (s : State) : Steady s (sampleArrival l word s) := by
  unfold sampleArrival
  split
  · exact steady_checkSample s l word
  · exact (steady_restoreLane s l).trans (steady_historySample _ l word)
  · exact steady_historySample s l word

theorem steady_silenceExpiry (l : Lane) (s : State) : Steady s (silenceExpiry l s) := by
  unfold silenceExpiry
  dsimp only
  split
  · split
    · exact (((Steady.refl s).setLane ..).laneNotice ..).trans (steady_freshnessOf ..)
    · exact steady_failCheck s l 0x80
    · exact .refl s
  · exact .refl s

theorem steady_startCheck (p : Port) (tag : Byte) (l : Lane) (s : State) : Steady s (startCheck p tag l s) := by
  have started : ∀ r, Steady s (((s.setLane l r).laneNotice l .checkStarted (s.tension.lanes.get l).state 0).serve p tag
      (.laneCheck l)) := fun r => (((Steady.refl s).setLane l r).laneNotice ..).serve ..
  unfold startCheck
  dsimp only
  split
  · exact (started _).trans (steady_freshnessOf ..)
  · exact started _

theorem steady_laneCheck (p : Port) (tag : Byte) (n : Nat) (s : State) : Steady s (laneCheck p tag n s) := by
  simp only [laneCheck]
  (repeat' split) <;> simp [steady_startCheck]

theorem steady_settingReset (l : Lane) (served : Option CellName) (s : State) : Steady s (settingReset l served s) := by
  have emptied : ∀ r, Steady s ((s.setLane l r).laneNotice l .setting (s.tension.lanes.get l).state 0) := fun r =>
    ((Steady.refl s).setLane l r).laneNotice ..
  unfold settingReset
  dsimp only
  split
  · exact (emptied _).trans (steady_closeCheck ..)
  · exact (emptied _).trans (steady_freshnessOf ..)
  · exact emptied _

theorem steady_filterReset (s : State) : Steady s (filterReset s) :=
  (steady_mk s ..).trans (steady_foldl freshnessUpdate steady_freshnessUpdate _ _)

theorem steady_abortCheck (l : Lane) (s : State) : Steady s (abortCheck l s) := ((Steady.refl s).setLane ..).laneNotice ..

/-! ## The drive bus (R157 to R164) -/

theorem steady_takeWrite (s : State) : Steady s (takeWrite s) := by
  unfold takeWrite
  split
  · exact .refl s
  · dsimp only
    split
    · exact steady_mk_hands s ..
    · exact steady_mk_hands s ..

theorem steady_takeWrites (s : State) : Steady s (takeWrites s) := steady_foldl _ (fun t _ => steady_takeWrite t) _ s

theorem steady_takeRaise (s : State) : Steady s (takeRaise s) := by
  unfold takeRaise
  split
  · exact .refl s
  · dsimp only
    split
    · exact steady_mk_hands s ..
    · exact steady_mk_hands s ..

theorem steady_expiryReady (s : State) : Steady s (expiryReady s) := by
  unfold expiryReady
  split
  · exact steady_foldl _ (fun t _ => steady_takeRaise t) _ s
  all_goals exact .refl s

theorem steady_transmitBegin (s : State) : Steady s (transmitBegin s) := by
  unfold transmitBegin
  (repeat' split) <;> simp

theorem steady_countFailure (c : TxContent) (s : State) : Steady s (countFailure c s) := by
  have counted : Steady s { s with bus := { s.bus with failures := min (s.bus.failures + 1) Config.failureLimit } } :=
    steady_mk s ..
  unfold countFailure
  dsimp only
  split
  · exact counted.hands _
  · exact counted

theorem steady_transmissionEnd (o : TxOutcome) (s : State) : Steady s (transmissionEnd o s) := by
  unfold transmissionEnd
  split
  · exact .refl s
  · cases o with
    | acknowledged => exact steady_mk s ..
    | lost => exact steady_mk s ..
    | failed => exact (steady_mk s ..).trans (steady_countFailure ..)

theorem steady_keepalive (s : State) : Steady s (keepalive s) := by
  unfold keepalive
  split
  · exact steady_mk s ..
  · exact .refl s

theorem steady_statusTimeout (w : Winch) (s : State) : Steady s (statusTimeout w s) := by
  have cleared : ∀ d, Steady s { s with bus := { s.bus with drives := s.bus.drives.set w d } } := fun _ => steady_mk s ..
  unfold statusTimeout
  dsimp only
  split
  · exact (cleared _).hands _
  · exact .refl s

theorem steady_ageAndKeep (s : State) : Steady s (ageAndKeep s) := by
  unfold ageAndKeep
  dsimp only
  split
  · exact ((steady_mk s ..).trans (steady_keepalive _)).trans (steady_foldl _ (fun t w => steady_statusTimeout w t) _ _)
  · exact steady_mk s ..

theorem steady_statusReceived (f : CanFrame) (s : State) : Steady s (statusReceived f s) := by
  unfold statusReceived
  split
  · exact .refl s
  next w _ _ _ _ =>
    have heard : ∀ d, Steady s { s with bus := { s.bus with drives := s.bus.drives.set w d } } := fun _ => steady_mk s ..
    dsimp only
    split
    · exact (heard _).hands _
    · exact heard _

/-- Before a servo step the blocks take what stands of the step before (entry 3). -/
theorem steady_settleStep (s : State) : Steady s (settleStep s) :=
  (steady_takeWrites s).trans ((steady_zoneReady _).trans ((steady_takeQueueResult _).trans
    ((steady_takeCarrierResult _).trans (steady_takeDrumResult _))))

/-! ## The request stage, ABORT and the transmit arbiter (R168 to R176) -/

theorem steady_passRequest (s : State) (p : Port) (tag : Byte) (c : Instr) : Steady s (passRequest s p tag c) := by
  unfold passRequest
  (repeat' split) <;> simp

theorem steady_takeFrame (s : State) (p : Port) (f : RawFrame) : Steady s (takeFrame s p f) := by
  simp only [takeFrame]
  (repeat' split) <;> simp [steady_passRequest]

theorem steady_requestFrame (p : Port) (s : State) : Steady s (requestFrame p s) := by
  unfold requestFrame
  split
  · exact ((Steady.refl s).setPort ..).trans (steady_takeFrame ..)
  · exact .refl s

theorem steady_endService (p : Port) (v : Service) (s : State) : Steady s (endService p v s) := by
  unfold endService
  dsimp only
  split
  · exact (((Steady.refl s).setPort ..).trans (steady_abortCheck _ _)).close ..
  · exact ((Steady.refl s).setPort ..).close ..

theorem steady_abort (p : Port) (tag : Byte) (s : State) : Steady s (Machine.abort p tag s) := by
  unfold Machine.abort
  split
  · simp
  · exact (steady_endService ..).close ..

theorem steady_portLineFree (p : Port) (s : State) : Steady s (portLineFree p s) := by
  unfold portLineFree
  split <;> exact (Steady.refl s).setPort ..

/-! ## SET and GET (R7 to R13) -/

theorem steady_rigEffects (id index : Nat) (before : Oct (Option CellName)) (s : State) :
    Steady s (rigEffects id index before s) := by
  unfold rigEffects
  dsimp only
  split
  all_goals simp [steady_settingReset, steady_filterReset]

theorem steady_getSetting (p : Port) (tag : Byte) (id index : Nat) (s : State) :
    Steady s (getSetting p tag id index s) := by
  unfold getSetting
  split <;> simp

end Sys2Proof.Proofs
end

section
namespace Sys2Proof.Proofs
open Sys2Proof.Machine

/-! ## The commands that change the flight

Every command leaves the flight alone, or makes one of these changes between events that leave it alone. -/

/-- The bounds of Table 1-2 on the stop rate, the speed cap and the line lengths, where the old settings keep them. -/
structure KeepsBounds (a b : Settings) : Prop where
  rate : 1 ≤ a.stopRate → 1 ≤ b.stopRate
  cap : 0 ≤ a.speedCap → 0 ≤ b.speedCap
  lengths : (∀ w, 0 ≤ a.lenMin.get w ∧ 0 ≤ a.lenMax.get w) → ∀ w, 0 ≤ b.lenMin.get w ∧ 0 ≤ b.lenMax.get w

/-- What a command does to the flight where it changes it. -/
inductive Change : Instr → State → State → Prop
  | clear {s t} (tag : Byte) (left : Quiet s t) : Change (.clearHalt .safety tag) s t
  | set {s} (p : Port) (tag : Byte) (id index : Nat) (v : Vec3) (st : Settings)
      (frozen : s.rigged = true → SameRig s.settings st) (bounds : KeepsBounds s.settings st) :
      Change (.set p tag id index v) s { s with settings := st }
  | servo {s} (p : Path) (rigged : s.rigged = true) (holds : s.path = some p) : Change .servoStep s (stepPath s p)
  | freeze {s} : Change .freeze s { s with path := s.path.map (fun p => { p with vel := Vec.zero }) }
  | commit {s} (p : Port) (tag : Byte) (pose : Vec3) (offline : s.rigged = false)
      (passes : commitFault s (Vec.micro pose) = none) : Change (.rigCommit p tag pose) s (commitAt (Vec.micro pose) s)
  | unrig {s} (tag : Byte) (rigged : s.rigged = true) :
      Change (.unrig .safety tag) s { unrigBlocks s with zones := (unrigZones s.zones).zones }
  | reset {s} (lines : ResetLines) : Change (.hardReset lines) s { State.resetWith lines with pending := s.pending }

/-- What a command does: it leaves the flight alone, or makes one change. -/
inductive Effect (c : Instr) (s t : State) : Prop
  | steady (h : Steady s t)
  | change (u v : State) (before : Steady s u) (made : Change c u v) (after : Steady v t)

theorem Effect.after {c : Instr} {s u t : State} (h : Steady s u) (e : Effect c u t) : Effect c s t := by
  cases e with
  | steady g => exact .steady (h.trans g)
  | change v w before made after => exact .change v w (h.trans before) made after

theorem effect_take (s : State) (p : Port) (tag : Byte) (c : Instr) (owner : State → State)
    (h : ∀ t, Effect c t (owner t)) : Effect c s (s.take p tag c owner) := by
  unfold State.take
  split
  · exact (h _).after (steady_arrive s p c)
  · exact .steady (steady_turnAway s p tag c)

/-! ## SET (R7 to R10) -/

/-- What a SET would store keeps the bounds. -/
def StoresBounded (st : Settings) (stored : Option Settings) : Prop := ∀ st', stored = some st' → KeepsBounds st st'

section Stores

variable {st st' : Settings}

theorem storesBounded_within {lo hi n : Int} (h : lo ≤ n → KeepsBounds st st') : StoresBounded st (within lo hi n st') := by
  intro a stored
  unfold within at stored
  split at stored
  next range => exact Option.some.inj stored ▸ h range.1
  next => exact absurd stored (by simp)

theorem storesBounded_map {α : Type} {o : Option α} {f : α → Settings} (h : ∀ a, KeepsBounds st (f a)) :
    StoresBounded st (o.map f) := fun b stored => by
  obtain ⟨a, -, rfl⟩ := Option.map_eq_some_iff.1 stored
  exact h a

theorem storesBounded_ite {c : Prop} [Decidable c] (h : KeepsBounds st st') :
    StoresBounded st (if c then some st' else none) := by
  intro a stored
  obtain ⟨-, same⟩ := Option.ite_none_right_eq_some.1 stored
  exact Option.some.inj same ▸ h

theorem quad_set_nonneg {q : Quad Int} (h : ∀ w, 0 ≤ q.get w) (v : Winch) {n : Int} (hn : 0 ≤ n) (w : Winch) :
    0 ≤ (q.set v n).get w := by
  rw [quad_get_set]
  split
  · exact hn
  · exact h w

end Stores

theorem storeRig_bounded (st : Settings) (id index : Nat) (v : Vec3) : StoresBounded st (storeRig st id index v) := by
  unfold storeRig
  dsimp only
  split
  case h_2 =>
    exact storesBounded_within fun lo => ⟨id, id, fun h w =>
      ⟨quad_set_nonneg (fun w => (h w).1) _ (by omega) w, (h w).2⟩⟩
  case h_3 =>
    exact storesBounded_within fun lo => ⟨id, id, fun h w =>
      ⟨(h w).1, quad_set_nonneg (fun w => (h w).2) _ (by omega) w⟩⟩
  case h_6 => exact storesBounded_within fun lo => ⟨id, fun _ => by dsimp only; omega, id⟩
  case h_8 => exact storesBounded_within fun lo => ⟨fun _ => lo, id, id⟩
  case h_1 | h_14 | h_17 => exact storesBounded_ite ⟨id, id, id⟩
  case h_10 | h_11 | h_15 => exact storesBounded_map fun _ => ⟨id, id, id⟩
  case h_22 => exact fun st' stored => absurd stored (by simp)
  all_goals exact storesBounded_within fun _ => ⟨id, id, id⟩

theorem SameRig.bounds {a b : Settings} (h : SameRig a b) : b.anchor = a.anchor ∧ b.lenMin = a.lenMin ∧
    b.lenMax = a.lenMax ∧ b.speedCap = a.speedCap ∧ b.stopRate = a.stopRate := by
  rw [h]
  exact ⟨rfl, rfl, rfl, rfl, rfl⟩

theorem SameRig.keepsBounds {a b : Settings} (h : SameRig a b) : KeepsBounds a b := by
  obtain ⟨-, least, greatest, cap, rate⟩ := h.bounds
  exact ⟨by rw [rate]; exact id, by rw [cap]; exact id, by rw [least, greatest]; exact id⟩

theorem effect_setSetting (p : Port) (tag : Byte) (id index : Nat) (v : Vec3) (s : State) :
    Effect (.set p tag id index v) s (setSetting p tag id index v s) := by
  have refused : ∀ status d1 d2, Effect (.set p tag id index v) s (s.close p tag status d1 d2) := fun _ _ _ =>
    .steady ((Steady.refl s).close ..)
  unfold setSetting
  split
  · exact refused ..
  · unfold setRig
    split
    · exact refused ..
    next offline =>
      split
      · exact refused ..
      next st stored =>
        exact .change s _ (.refl s) (.set p tag id index v st (fun rigged => absurd rigged offline)
          (storeRig_bounded s.settings id index v st stored)) ((steady_rigEffects ..).close ..)
  · unfold setLive
    split
    · exact refused ..
    · dsimp only
      split
      · have same := storeLive_sameRig s.settings id index (clampLive id v.x)
        exact .change s _ (.refl s) (.set p tag id index v _ (fun _ => same) same.keepsBounds) ((Steady.refl _).close ..)
      · exact refused ..
  · exact .steady (((Steady.refl s).setPort ..).close ..)

/-! ## The servo step, the freeze, RIG_COMMIT, UNRIG and CLEAR_HALT -/

theorem effect_servoStep (s : State) : Effect .servoStep s (servoStep s) := by
  have settled := steady_settleStep s
  unfold servoStep
  split
  next rigged =>
    dsimp only
    split
    · exact .steady settled
    next p holds => exact .change _ _ settled (.servo p (settled.rigged.trans rigged) holds) (.refl _)
  next => exact .steady (.refl s)

theorem effect_freeze (s : State) : Effect .freeze s (Machine.freeze s) := by
  have taken : Steady s { s with hands := { s.hands with freeze := false } } := (Steady.refl s).hands _
  unfold Machine.freeze
  split
  · dsimp only
    split
    · exact .change _ _ taken .freeze (.refl _)
    · exact .steady taken
  · exact .steady (.refl s)

theorem effect_rigCommit (p : Port) (tag : Byte) (pose : Vec3) (s : State) :
    Effect (.rigCommit p tag pose) s (rigCommit p tag pose s) := by
  have refused : ∀ status d1 d2, Effect (.rigCommit p tag pose) s (s.close p tag status d1 d2) := fun _ _ _ =>
    .steady ((Steady.refl s).close ..)
  unfold rigCommit
  split
  · exact refused ..
  next offline =>
    split
    · exact refused ..
    · split
      · exact refused ..
      next passes =>
        exact .change s _ (.refl s) (.commit p tag pose (by simpa using offline) passes) (((Steady.refl _).close ..).notify _)

theorem steady_unrigTold (s : State) (ns : List Notice) (w : ZoneWork) :
    Steady { unrigBlocks s with zones := w.zones } (((unrigBlocks s).told ns).applyZoneWork w) := by
  rw [State.applyZoneWork, notifyAll_told]
  exact (((Steady.refl { unrigBlocks s with zones := w.zones }).told ns).told _).handChanges _

/-- R19: once the blocks are OFFLINE and the zone table is as UNRIG leaves it, the rest of the UNRIG is notices and marks. -/
theorem steady_unrigNow (s : State) :
    Steady { unrigBlocks s with zones := (unrigZones s.zones).zones } (unrigNow s) := by
  have work : ∀ ns, (((unrigBlocks s).told ns).zones) = s.zones := told_zones _
  simp only [unrigNow, State.windNotice, notify_told, modeNotice_told, told_told]
  refine Steady.trans ?_ (steady_settleMarks _)
  split
  · rw [work]
    exact steady_unrigTold ..
  · rw [work]
    exact steady_unrigTold ..

theorem effect_unrig (p : Port) (tag : Byte) (s : State) : Effect (.unrig p tag) s (Machine.unrig p tag s) := by
  unfold Machine.unrig
  split
  · exact .steady ((Steady.refl s).close ..)
  next accepted =>
    have ready := steady_queueReady s
    obtain ⟨rfl, mode⟩ : p = .safety ∧ s.carrier.mode ≠ .offline := by
      cases p with
      | rig => exact absurd accepted (by simp [unrigFault])
      | safety => exact ⟨rfl, fun mode => absurd accepted (by simp [unrigFault, mode])⟩
    exact .change _ _ ready (.unrig tag (ready.rigged.trans (rigged_of_mode mode))) ((steady_unrigNow _).close ..)

theorem effect_clearHalt (p : Port) (tag : Byte) (s : State) : Effect (.clearHalt p tag) s (Machine.clearHalt p tag s) := by
  cases p with
  | rig => exact .steady (by simp [Machine.clearHalt])
  | safety => exact .change s _ (.refl s) (.clear tag (quiet_clearHalt .safety tag s)) (.refl _)

/-! ## Every command -/

theorem steady_execFaultReport (s : State) : ∃ t, execFaultReport s = .next t ∧ Steady s t := by
  unfold execFaultReport
  split
  · exact ⟨_, rfl, .refl s⟩
  · exact ⟨_, rfl, ((steady_carrierReady s).hands _).trans (steady_raiseCause _ _)⟩

theorem steady_execEndTravel (s : State) : ∃ t, execEndTravel s = .next t ∧ Steady s t := by
  unfold execEndTravel
  split
  · exact ⟨_, rfl, .refl s⟩
  · exact ⟨_, rfl, (steady_mk_hands s ..).trans (steady_endTravel _ _)⟩

theorem steady_execWindHoldChange (s : State) : ∃ t, execWindHoldChange s = .next t ∧ Steady s t := by
  unfold execWindHoldChange
  split
  · exact ⟨_, rfl, .refl s⟩
  · exact ⟨_, rfl, (steady_mk_hands s ..).trans (steady_windHoldChange _ _)⟩

theorem steady_execTravelBegun (s : State) : ∃ t, execTravelBegun s = .next t ∧ Steady s t := by
  unfold execTravelBegun
  split
  · exact ⟨_, rfl, ((steady_mk_hands s ..).trans (steady_queueReady _)).trans (steady_travelBegun _ _)⟩
  · exact ⟨_, rfl, .refl s⟩

theorem steady_execTravelEnded (s : State) : ∃ t, execTravelEnded s = .next t ∧ Steady s t := by
  unfold execTravelEnded
  split
  · exact ⟨_, rfl, ((steady_mk_hands s ..).trans (steady_queueReady _)).trans (steady_travelEnded _)⟩
  · exact ⟨_, rfl, .refl s⟩

theorem steady_settledReport (s : State) : Steady s (takeMarkReport (settleMarks s)) :=
  (steady_settleMarks s).trans (steady_takeMarkReport _)

theorem steady_execRetirementReport (s : State) : ∃ t, execRetirementReport s = .next t ∧ Steady s t := by
  unfold execRetirementReport
  split <;> exact ⟨_, rfl, by simp [steady_settledReport]⟩

theorem steady_execReplacementReport (s : State) : ∃ t, execReplacementReport s = .next t ∧ Steady s t := by
  unfold execReplacementReport
  split <;> exact ⟨_, rfl, by simp [steady_settledReport]⟩

theorem steady_execStateChangeReport (s : State) : ∃ t, execStateChangeReport s = .next t ∧ Steady s t := by
  unfold execStateChangeReport
  split <;> exact ⟨_, rfl, by simp [steady_settledReport]⟩

theorem Effect.ofSteady {c : Instr} {s : State} {r : Result} (h : ∃ t, r = .next t ∧ Steady s t) :
    ∃ t, r = .next t ∧ Effect c s t := h.imp fun _ ⟨run, left⟩ => ⟨run, .steady left⟩

theorem exec_effect (c : Instr) (s : State) : ∃ t, exec c s = .next t ∧ Effect c s t := by
  cases c with
  | hardReset lines => exact ⟨_, rfl, .change s _ (.refl s) (.reset lines) (.refl _)⟩
  | servoStep => exact ⟨_, rfl, effect_servoStep s⟩
  | freeze => exact ⟨_, rfl, effect_freeze s⟩
  | set p tag id index v => exact ⟨_, rfl, effect_take _ _ _ _ _ (effect_setSetting p tag id index v)⟩
  | rigCommit p tag pose => exact ⟨_, rfl, effect_take _ _ _ _ _ (effect_rigCommit p tag pose)⟩
  | unrig p tag => exact ⟨_, rfl, effect_take _ _ _ _ _ fun t => (effect_unrig p tag _).after (steady_carrierReady t)⟩
  | clearHalt p tag => exact ⟨_, rfl, effect_take _ _ _ _ _ (effect_clearHalt p tag)⟩
  | setpointWrite => exact ⟨_, rfl, .steady (steady_takeWrite s)⟩
  | zoneStepResult => exact ⟨_, rfl, .steady ((steady_settleMarks s).trans (steady_takeZoneResult _))⟩
  | queueStepResult => exact ⟨_, rfl, .steady (steady_takeQueueResult s)⟩
  | dwellEnd => exact ⟨_, rfl, .steady ((steady_queueReady s).trans (steady_dwellEnd _))⟩
  | carrierStepResult => exact ⟨_, rfl, .steady (steady_takeCarrierResult s)⟩
  | drumStepResult => exact ⟨_, rfl, .steady (steady_takeDrumResult s)⟩
  | zoneSecondTick => exact ⟨_, rfl, .steady (steady_zoneEvent (fun t settled => steady_zoneSecondTick settled) s)⟩
  | zoneLapse n => exact ⟨_, rfl, .steady (steady_zoneEvent (fun t settled => steady_zoneLapse settled n) s)⟩
  | drumSecondTick => exact ⟨_, rfl, .steady (steady_mk s ..)⟩
  | windSecondTick => exact ⟨_, rfl, .steady (steady_windSecondTick s)⟩
  | windHoldChange => exact Effect.ofSteady (steady_execWindHoldChange s)
  | anemometerPulse => exact ⟨_, rfl, .steady (steady_mk s ..)⟩
  | encoderTransition w levels => exact ⟨_, rfl, .steady (steady_encoderTransition w levels s)⟩
  | sampleArrival l word => exact ⟨_, rfl, .steady (steady_sampleArrival l word s)⟩
  | silenceExpiry l => exact ⟨_, rfl, .steady (steady_silenceExpiry l s)⟩
  | cueEdge => exact ⟨_, rfl, .steady ((steady_queueReady s).trans (steady_cueEdge _))⟩
  | estopActive level => exact ⟨_, rfl, .steady (steady_estopActive level s)⟩
  | faultReport => exact Effect.ofSteady (steady_execFaultReport s)
  | raiseStop => exact ⟨_, rfl, .steady (steady_takeRaise s)⟩
  | drivePeriodExpiry => exact ⟨_, rfl, .steady ((steady_expiryReady s).trans (steady_ageAndKeep _))⟩
  | statusTimeout w => exact ⟨_, rfl, .steady (steady_statusTimeout w s)⟩
  | keepalive => exact ⟨_, rfl, .steady (steady_keepalive s)⟩
  | transmitBegin => exact ⟨_, rfl, .steady (steady_transmitBegin s)⟩
  | transmissionEnd o => exact ⟨_, rfl, .steady (steady_transmissionEnd o s)⟩
  | statusReceived f => exact ⟨_, rfl, .steady (steady_statusReceived f s)⟩
  | travelBegun => exact Effect.ofSteady (steady_execTravelBegun s)
  | travelEnded => exact Effect.ofSteady (steady_execTravelEnded s)
  | endTravel => exact Effect.ofSteady (steady_execEndTravel s)
  | changeInForceReport => exact ⟨_, rfl, .steady (steady_takeChangeReport s)⟩
  | retirementReport => exact Effect.ofSteady (steady_execRetirementReport s)
  | replacementReport => exact Effect.ofSteady (steady_execReplacementReport s)
  | stateChangeReport => exact Effect.ofSteady (steady_execStateChangeReport s)
  | receiveCharacter p b stop => exact ⟨_, rfl, .steady ((Steady.refl s).setPort ..)⟩
  | receiveGap p => exact ⟨_, rfl, .steady ((Steady.refl s).setPort ..)⟩
  | requestFrame p => exact ⟨_, rfl, .steady (steady_requestFrame p s)⟩
  | portLineFree p => exact ⟨_, rfl, .steady (steady_portLineFree p s)⟩
  | portPeriodExpiry p => exact ⟨_, rfl, .steady ((Steady.refl s).setPort ..)⟩
  | telemetryDue p => exact ⟨_, rfl, .steady ((Steady.refl s).setPort ..)⟩
  | get p tag id index => exact ⟨_, rfl, .steady (steady_take _ _ _ _ _ (steady_getSetting p tag id index))⟩
  | laneCheck p tag n => exact ⟨_, rfl, .steady (steady_take _ _ _ _ _ (steady_laneCheck p tag n))⟩
  | zoneAdd p tag b => exact ⟨_, rfl, .steady (steady_zoneRequest _ _ _ _ fun t _ => steady_zoneAdd p tag b t)⟩
  | zoneEdit p tag b => exact ⟨_, rfl, .steady (steady_zoneRequest _ _ _ _ fun t settled => steady_zoneEdit settled p tag b)⟩
  | zoneRetire p tag n => exact ⟨_, rfl, .steady (steady_zoneRequest _ _ _ _ fun t settled => steady_zoneRetire settled p tag n)⟩
  | zoneLock p tag n => exact ⟨_, rfl, .steady (steady_zoneRequest _ _ _ _ fun t _ => steady_zoneLock p tag n t)⟩
  | zoneUnlock p tag n => exact ⟨_, rfl, .steady (steady_zoneRequest _ _ _ _ fun t _ => steady_zoneUnlock p tag n t)⟩
  | zoneFix p tag n => exact ⟨_, rfl, .steady (steady_zoneRequest _ _ _ _ fun t _ => steady_zoneFix p tag n t)⟩
  | zoneRead p tag n => exact ⟨_, rfl, .steady (steady_zoneRequest _ _ _ _ fun t _ => steady_zoneRead p tag n t)⟩
  | zoneList p tag filter code => exact ⟨_, rfl, .steady (steady_zoneRequest _ _ _ _ fun t _ => steady_zoneList p tag filter code t)⟩
  | markSet p tag b => exact ⟨_, rfl, .steady (steady_take_after _ _ _ _ steady_settleMarks (steady_markSet p tag b))⟩
  | markHere p tag b => exact ⟨_, rfl, .steady (steady_take_after _ _ _ _ steady_settleMarks (steady_markHere p tag b))⟩
  | markRetire p tag n => exact ⟨_, rfl, .steady (steady_take_after _ _ _ _ steady_settleMarks (steady_markRetire p tag n))⟩
  | markRead p tag n => exact ⟨_, rfl, .steady (steady_take_after _ _ _ _ steady_settleMarks (steady_markRead p tag n))⟩
  | markList p tag n => exact ⟨_, rfl, .steady (steady_take_after _ _ _ _ steady_settleMarks (steady_markList p tag n))⟩
  | moveAdd p tag b => exact ⟨_, rfl, .steady (steady_take_after _ _ _ _ steady_queueReady (steady_moveAdd p tag b))⟩
  | moveCancel p tag id => exact ⟨_, rfl, .steady (steady_take_after _ _ _ _ steady_queueReady (steady_moveCancel p tag id))⟩
  | queueClear p tag => exact ⟨_, rfl, .steady (steady_take_after _ _ _ _ steady_queueReady (steady_queueClear p tag))⟩
  | queueList p tag => exact ⟨_, rfl, .steady (steady_take _ _ _ _ _ fun t => (Steady.refl t).serve ..)⟩
  | run p tag => exact ⟨_, rfl, .steady (steady_take _ _ _ _ _ (steady_run p tag))⟩
  | stop p tag => exact ⟨_, rfl, .steady (steady_take _ _ _ _ _ (steady_stop p tag))⟩
  | takeStick p tag => exact ⟨_, rfl, .steady (steady_take _ _ _ _ _ (steady_takeStick p tag))⟩
  | steer p tag v => exact ⟨_, rfl, .steady (steady_take_after _ _ _ _ steady_carrierReady (steady_steer p tag v))⟩
  | releaseStick p tag => exact ⟨_, rfl, .steady (steady_take _ _ _ _ _ (steady_releaseStick p tag))⟩
  | park p tag => exact ⟨_, rfl, .steady (steady_take_after _ _ _ _ steady_carrierReady (steady_park p tag))⟩
  | unpark p tag => exact ⟨_, rfl, .steady (steady_take _ _ _ _ _ (steady_unpark p tag))⟩
  | halt p tag => exact ⟨_, rfl, .steady (steady_take_after _ _ _ _ steady_carrierReady (steady_halt p tag))⟩
  | abort p tag => exact ⟨_, rfl, .steady (steady_take _ _ _ _ _ (steady_abort p tag))⟩

theorem effect_of_exec {c : Instr} {s t : State} (run : exec c s = .next t) : Effect c s t := by
  obtain ⟨u, run', effect⟩ := exec_effect c s
  obtain rfl := Host.Outcome.next.inj (run'.symm.trans run)
  exact effect

theorem steady_idle (s : State) : Steady s (idle s) := by
  unfold idle tickPeriod
  dsimp only
  (repeat' split) <;> exact steady_mk s ..

/-- What every change keeps, and every event that leaves the flight alone, every step keeps. -/
theorem step_keeps_of {I : State → Prop} (quiet : ∀ {s t}, Quiet s t → I s → I t)
    (change : ∀ {c s t}, Change c s t → I s → I t) {s t : State} (h : I s) (run : step s = .next t) : I t := by
  unfold step at run
  split at run
  · obtain rfl := Host.Outcome.next.inj run
    exact quiet (steady_idle s).toQuiet h
  next c rest _ =>
    have taken : I { s with pending := rest } := quiet (steady_mk s ..).toQuiet h
    cases effect_of_exec run with
    | steady left => exact quiet left.toQuiet taken
    | change u v before made after =>
      exact quiet after.toQuiet (change made (quiet before.toQuiet taken))

/-! ## OFFLINE, HALTED and the path generator (Table 5-2, R111) -/

section Change

variable {c : Instr} {s t : State} (made : Change c s t)

include made

theorem Change.rigs (old : s.rigged = false) (new : t.rigged = true) : ∃ p tag pose, c = .rigCommit p tag pose := by
  have same : ∀ {b : Bool}, b = s.rigged → b ≠ true := fun h => by simp [h, old]
  cases made with
  | commit p tag pose => exact ⟨p, tag, pose, rfl⟩
  | clear _ left => exact absurd new (same left.rigged)
  | set => exact absurd new (same rfl)
  | servo => exact absurd new (same rfl)
  | freeze => exact absurd new (same rfl)
  | unrig _ rigged => simp [old] at rigged
  | reset => exact absurd new (by simp [State.rigged, State.resetWith, Carrier.reset])

theorem Change.unrigs (old : s.rigged = true) (new : t.rigged = false) :
    (∃ tag, c = .unrig .safety tag) ∨ ∃ lines, c = .hardReset lines := by
  have same : ∀ {b : Bool}, b = s.rigged → b ≠ false := fun h => by simp [h, old]
  cases made with
  | commit _ _ _ offline => simp [old] at offline
  | clear _ left => exact absurd new (same left.rigged)
  | set => exact absurd new (same rfl)
  | servo => exact absurd new (same rfl)
  | freeze => exact absurd new (same rfl)
  | unrig tag => exact .inl ⟨tag, rfl⟩
  | reset lines => exact .inr ⟨lines, rfl⟩

theorem Change.endsHalt (old : s.carrier.mode.isHalted = true) (new : t.carrier.mode.isHalted = false) :
    (∃ tag, c = .clearHalt .safety tag) ∨ (∃ tag, c = .unrig .safety tag) ∨ ∃ lines, c = .hardReset lines := by
  have same : s.carrier.mode.isHalted ≠ false := by simp [old]
  cases made with
  | commit _ _ _ offline => simp [halted_rigged old] at offline
  | clear tag => exact .inl ⟨tag, rfl⟩
  | set => exact absurd new same
  | servo => exact absurd new same
  | freeze => exact absurd new same
  | unrig tag => exact .inr (.inl ⟨tag, rfl⟩)
  | reset lines => exact .inr (.inr ⟨lines, rfl⟩)

theorem Change.movesPath (new : t.path ≠ s.path) :
    c = .servoStep ∨ c = .freeze ∨ (∃ p tag pose, c = .rigCommit p tag pose) ∨ (∃ p tag, c = .unrig p tag) ∨
      ∃ lines, c = .hardReset lines := by
  cases made with
  | commit p tag pose => exact .inr (.inr (.inl ⟨p, tag, pose, rfl⟩))
  | clear _ left => exact absurd left.path new
  | set => exact absurd rfl new
  | servo => exact .inl rfl
  | freeze => exact .inr (.inl rfl)
  | unrig tag => exact .inr (.inr (.inr (.inl ⟨.safety, tag, rfl⟩)))
  | reset lines => exact .inr (.inr (.inr (.inr ⟨lines, rfl⟩)))

end Change

/-- Settles O15: what leaves the flight alone keeps OFFLINE, HALTED and the path, and each change is one of the commands
named. -/
theorem modeAndPathChangeByTheirEvents : Obligations.ModeAndPathChangeByTheirEvents := by
  refine ⟨fun c s t run => ?_, fun c s t run moved => ?_⟩
  · cases effect_of_exec run with
    | steady left =>
      have rigged := left.rigged
      exact ⟨fun old new => by simp [rigged, old] at new, fun old new => by simp [rigged, old] at new,
        fun old new => by simp [left.halted old] at new⟩
    | change u v before made after =>
      refine ⟨fun old new => ?_, fun old new => ?_, fun old new => ?_⟩
      · exact made.rigs (before.rigged.trans old) (after.rigged.symm.trans new)
      · exact made.unrigs (before.rigged.trans old) (after.rigged.symm.trans new)
      · exact made.endsHalt (before.halted old) (Bool.eq_false_iff.2 fun halted => by simp [after.halted halted] at new)
  · cases effect_of_exec run with
    | steady left => exact absurd left.path moved
    | change u v before made after => exact made.movesPath fun same => moved (after.path.trans (same.trans before.path))

end Sys2Proof.Proofs
end

section
namespace Sys2Proof.Proofs
open Sys2Proof.Machine

/-! ## What a servo step does to the carrier (R114 to R122) -/

/-- The motions of a servo step: the carrier rests where it is, takes a candidate that passes the clearance check, with a
velocity within the speed cap, or brakes. -/
inductive Moves (st : Settings) (zones : List Zone) (p : Path) : Motion → Prop
  | rest (arrival : Bool) : Moves st zones p (restAt p.pose arrival)
  | accepted (c : Vec3) (slow : 0 ≤ st.speedCap → Vec.sq c ≤ st.speedCap * st.speedCap)
      (clear : clearance zones (candidate st.stopRate p.pose c).box = true) :
      Moves st zones p (candidate st.stopRate p.pose c)
  | braked : Moves st zones p (brake st.stopRate p.pose p.vel)

theorem moves_moveToward (st : Settings) (zones : List Zone) (p : Path) (d : Vec3) :
    Moves st zones p (moveToward st zones p d) := by
  by_cases still : triedVelocity st p d = Vec.zero ∧ p.vel = Vec.zero
  · rw [moveToward_still _ _ _ _ still.1 still.2]
    exact .rest false
  · rw [moveToward_moves _ _ _ _ still]
    split
    next clear => exact .accepted _ (sq_limitMagnitude_le st.speedCap _) clear
    next => exact .braked

theorem moves_motionOf (s : State) (p : Path) (eff : Int) : Moves s.settings s.zones p (motionOf s p eff) := by
  unfold motionOf
  split
  · exact .rest false
  · exact .braked
  · exact moves_moveToward ..
  · split
    · unfold flyTo
      split
      · exact .rest true
      · exact moves_moveToward ..
    · exact moves_moveToward ..
  all_goals exact moves_moveToward ..

theorem stopPoint_of_nonneg (b p v : Int) (hv : 0 ≤ v) : stopPoint b p v = p + stopDistance b v := by
  rcases hv.eq_or_lt with rfl | pos
  · simp [stopPoint, stopDistance]
  · rw [stopPoint, Int.sign_eq_one_of_pos pos, Int.natAbs_of_nonneg hv, one_mul]

theorem stopPoint_neg (b p v : Int) : stopPoint b (-p) (-v) = -stopPoint b p v := by
  simp only [stopPoint, Int.natAbs_neg, Int.sign_neg]
  ring

theorem brakeComponent_of_nonneg (b v : Int) (hb : 0 < b) (hv : 0 ≤ v) : brakeComponent b v = max (v - b) 0 := by
  rcases hv.eq_or_lt with rfl | pos
  · simp [brakeComponent, hb.le]
  · rw [brakeComponent, Int.sign_eq_one_of_pos pos, Int.natAbs_of_nonneg hv, one_mul]

theorem brakeComponent_neg (b v : Int) : brakeComponent b (-v) = -brakeComponent b v := by
  simp only [brakeComponent, Int.natAbs_neg, Int.sign_neg]
  ring

/-- R122: a forward component braked once lies on the way to rest, and would come to rest at the old stop point at the
farthest. -/
theorem brake_forward (b p v : Int) (hb : 0 < b) (hv : 0 ≤ v) :
    p ≤ p + 4 * brakeComponent b v ∧
      p + 4 * brakeComponent b v ≤ stopPoint b (p + 4 * brakeComponent b v) (brakeComponent b v) ∧
      stopPoint b (p + 4 * brakeComponent b v) (brakeComponent b v) ≤ stopPoint b p v := by
  have far := stopDistance_nonneg b v hb hv
  have once := stopDistance_brake b v hb
  rw [brakeComponent_of_nonneg b v hb hv, stopPoint_of_nonneg b p v hv, stopPoint_of_nonneg _ _ _ (le_max_right ..)]
  rcases le_total b v with fast | slow
  · have left := stopDistance_nonneg b (v - b) hb (by omega)
    rw [max_eq_left (by omega)]
    omega
  · have stops := stopDistance_below_rate b 0 le_rfl hb
    rw [max_eq_right (by omega)]
    omega

/-- A component braked once, and where it would come to rest, lie between the pose and the old stop point. -/
theorem brake_between (b p v : Int) (hb : 0 < b) :
    let n := p + 4 * brakeComponent b v
    let rest := stopPoint b n (brakeComponent b v)
    (p ≤ n ∧ n ≤ rest ∧ rest ≤ stopPoint b p v) ∨ (stopPoint b p v ≤ rest ∧ rest ≤ n ∧ n ≤ p) := by
  rcases le_total 0 v with forward | backward
  · exact .inl (brake_forward b p v hb forward)
  · have mirrored := brake_forward b (-p) (-v) hb (by omega)
    rw [brakeComponent_neg, show -p + 4 * -brakeComponent b v = -(p + 4 * brakeComponent b v) by ring, stopPoint_neg,
      stopPoint_neg] at mirrored
    exact .inr (by omega)

theorem abs_brakeComponent_le (b v : Int) (hb : 0 < b) : |brakeComponent b v| ≤ |v| := by
  rcases le_total 0 v with forward | backward
  · rw [brakeComponent_of_nonneg b v hb forward, abs_of_nonneg (le_max_right ..), abs_of_nonneg forward]
    omega
  · rw [← abs_neg v, ← abs_neg (brakeComponent b v), ← brakeComponent_neg, brakeComponent_of_nonneg b _ hb (by omega),
      abs_of_nonneg (le_max_right ..), abs_of_nonneg (by omega)]
    omega

theorem sq_brake_le (b : Int) (v : Vec3) (hb : 0 < b) : Vec.sq (Vec.map (brakeComponent b) v) ≤ Vec.sq v := by
  have less : ∀ a, brakeComponent b a * brakeComponent b a ≤ a * a := fun a =>
    abs_le_iff_mul_self_le.1 (abs_brakeComponent_le b a hb)
  have := less v.x
  have := less v.y
  have := less v.z
  simp only [Vec.sq, Vec.map]
  omega

theorem stopPoint_zero (b p : Int) : stopPoint b p 0 = p := by simp [stopPoint]

theorem contains_iff (a b : Box) : a.contains b = true ↔
    a.lo.x ≤ b.lo.x ∧ b.hi.x ≤ a.hi.x ∧ a.lo.y ≤ b.lo.y ∧ b.hi.y ≤ a.hi.y ∧ a.lo.z ≤ b.lo.z ∧ b.hi.z ≤ a.hi.z := by
  simp only [Box.contains, Bool.and_eq_true, decide_eq_true_eq, and_assoc]

/-- A box holds two points where it contains the box that they span. -/
theorem contains_span_iff (b : Box) (p q : Vec3) :
    b.contains (.span p q) = true ↔ b.holds p = true ∧ b.holds q = true := by
  rw [contains_iff, holds_iff, holds_iff]
  simp only [Box.span, Vec.map2]
  omega

theorem covers_iff (stop : Int) (p : Path) : p.covers stop = true ↔
    p.box.holds p.pose = true ∧ p.box.holds (Vec.map2 (stopPoint stop) p.pose p.vel) = true := contains_span_iff ..

theorem covers_atRest {stop : Int} {p : Path} (rest : p.vel = Vec.zero) :
    p.covers stop = true ↔ p.box.holds p.pose = true := by
  rw [covers_iff, rest]
  simp [Vec.map2, Vec.zero, stopPoint_zero]

theorem holds_point (x : Vec3) : (Box.point x).holds x = true := by simp [holds_iff, Box.point]

/-- R122: the box of a brake lies within a box that covers the braking. -/
theorem contains_brake {stop : Int} {p : Path} (hs : 0 < stop) (covers : p.covers stop = true) :
    p.box.contains (brake stop p.pose p.vel).box = true := by
  obtain ⟨pose, rest⟩ := (covers_iff ..).1 covers
  rw [holds_iff] at pose rest
  have hx := brake_between stop p.pose.x p.vel.x hs
  have hy := brake_between stop p.pose.y p.vel.y hs
  have hz := brake_between stop p.pose.z p.vel.z hs
  refine (contains_span_iff ..).2 ⟨?_, ?_⟩ <;> rw [holds_iff] <;>
    simp only [Vec.map2, Vec.map, Vec.add, Vec.scale] at * <;> omega

/-- The box of a motion holds where it ends and where the carrier would come to rest from there. -/
theorem moves_holds {st : Settings} {zones : List Zone} {p : Path} {m : Motion} (hs : 0 < st.stopRate)
    (h : Moves st zones p m) :
    m.box.holds m.pose = true ∧ m.box.holds (Vec.map2 (stopPoint st.stopRate) m.pose m.vel) = true := by
  cases h with
  | rest arrival => simp [restAt, holds_point, Vec.map2, Vec.zero, stopPoint_zero]
  | accepted c => exact (candidate_holds st.stopRate p.pose c hs).2
  | braked => exact (contains_span_iff ..).1 (by simp [contains_iff, brake])

/-- A motion that ends at rest ends where it began. -/
theorem moves_still {st : Settings} {zones : List Zone} {p : Path} {m : Motion} (h : Moves st zones p m)
    (still : m.vel = Vec.zero) : m.pose = p.pose := by
  cases h with
  | rest => rfl
  | accepted c =>
    obtain rfl : c = Vec.zero := still
    simp [candidate, Vec.add, Vec.scale, Vec.zero]
  | braked =>
    have braked : Vec.map (brakeComponent st.stopRate) p.vel = Vec.zero := still
    show Vec.add p.pose (Vec.scale 4 (Vec.map (brakeComponent st.stopRate) p.vel)) = p.pose
    simp [braked, Vec.add, Vec.scale, Vec.zero]

/-! ## The speed cap (R119) -/

theorem Quiet.pathAgrees {s t : State} (h : Quiet s t) (agrees : s.pathAgrees) : t.pathAgrees := by
  obtain ⟨rigged, rate⟩ := agrees
  exact ⟨by rw [h.rigged, h.path, rigged], by rwa [h.settings]⟩

theorem unrigBlocks_rigged (s : State) : (unrigBlocks s).rigged = false := by
  simp [unrigBlocks, raiseStopNow, State.rigged, Carrier.unrig]

theorem Change.pathAgrees {c : Instr} {s t : State} (made : Change c s t) (agrees : s.pathAgrees) : t.pathAgrees := by
  have ⟨rigged, rate⟩ := agrees
  cases made with
  | clear _ left => exact left.pathAgrees agrees
  | set _ _ _ _ _ st frozen bounds => exact ⟨rigged, bounds.rate rate⟩
  | servo p rig => exact ⟨rig, rate⟩
  | freeze => exact ⟨rigged.trans (by simp), rate⟩
  | commit => exact ⟨rfl, rate⟩
  | unrig => exact ⟨unrigBlocks_rigged s, rate⟩
  | reset => exact ⟨by simp [State.rigged, State.resetWith, Carrier.reset], by simp [State.resetWith, Settings.reset]⟩

theorem rigged_of_path {s : State} {p : Path} (agrees : s.pathAgrees) (h : s.path = some p) : s.rigged = true := by
  rw [agrees.1, h]
  rfl

theorem sq_zero_le (n : Int) : Vec.sq Vec.zero ≤ n * n := mul_self_nonneg n

theorem moves_withinCap {st : Settings} {zones : List Zone} {p : Path} {m : Motion} (hs : 0 < st.stopRate)
    (hc : 0 ≤ st.speedCap) (slow : Vec.sq p.vel ≤ st.speedCap * st.speedCap) (h : Moves st zones p m) :
    Vec.sq m.vel ≤ st.speedCap * st.speedCap := by
  cases h with
  | rest => exact sq_zero_le _
  | accepted c slow => exact slow hc
  | braked => exact (sq_brake_le _ _ hs).trans slow

theorem Quiet.withinCap {s t : State} (h : Quiet s t) (within : s.withinCap) : t.withinCap := by
  obtain ⟨agrees, cap, slow⟩ := within
  exact ⟨h.pathAgrees agrees, by rwa [h.settings], by rwa [h.settings, h.path]⟩

theorem Change.withinCap {c : Instr} {s t : State} (made : Change c s t) (within : s.withinCap) : t.withinCap := by
  have ⟨agrees, cap, slow⟩ := within
  have agrees' := made.pathAgrees agrees
  cases made with
  | clear _ left => exact left.withinCap within
  | set _ _ _ _ _ st frozen bounds =>
    refine ⟨agrees', bounds.cap cap, fun p holds => ?_⟩
    obtain ⟨-, -, -, same, -⟩ := (frozen (rigged_of_path agrees holds)).bounds
    exact same ▸ slow p holds
  | servo p rigged holds =>
    refine ⟨agrees', cap, fun q moved => ?_⟩
    obtain rfl := Option.some.inj moved
    exact moves_withinCap agrees.2 cap (slow p holds) (moves_motionOf s p _)
  | freeze =>
    refine ⟨agrees', cap, fun q frozen => ?_⟩
    obtain ⟨p, -, rfl⟩ := Option.map_eq_some_iff.1 frozen
    exact sq_zero_le _
  | commit =>
    refine ⟨agrees', cap, fun q committed => ?_⟩
    obtain rfl := Option.some.inj committed
    exact sq_zero_le _
  | unrig => exact ⟨agrees', cap, fun _ none_ => nomatch none_⟩
  | reset => exact ⟨agrees', by simp [State.resetWith, Settings.reset], fun _ none_ => nomatch none_⟩

/-- Settles O8: every change keeps the speed within the cap. -/
theorem speedStaysWithinCap : Obligations.SpeedStaysWithinCap := fun _ _ within run =>
  step_keeps_of Quiet.withinCap Change.withinCap within run

end Sys2Proof.Proofs
end

section
namespace Sys2Proof.Proofs
open Sys2Proof.Machine

/-! ## The stopping box lies in a keep-in (R121) -/

/-- What the stopping box rests on: it covers the braking, it is the reference box of the zone table or on its way to it,
and while the carrier moves a keep-in in force holds it. -/
structure Guarded (s : State) : Prop where
  agrees : s.pathAgrees
  ascending : Ascending s.zones
  covers : ∀ p, s.path = some p → p.covers s.settings.stopRate = true
  ref : ∀ p, s.path = some p → zoneRef s = some p.box
  kept : ∀ p, s.path = some p → p.vel ≠ Vec.zero → keptIn s.zones p.box = true

theorem guarded_of_boxClear {s : State} (clear : s.boxClear) (legal : s.tablesLegal) (kept : s.boxKept) : Guarded s := by
  obtain ⟨agrees, box⟩ := clear
  refine ⟨agrees, legal.1, fun p holds => (box p holds).1, fun p holds => ?_, fun p holds moves =>
    (keptIn_iff ..).2 (kept p holds moves)⟩
  obtain ⟨-, -, reference⟩ := box p holds
  split at reference
  next r stands => rw [zoneRef_stands (rigged_of_path agrees holds) stands, reference]
  next settled => rw [zoneRef_settled settled, reference]

theorem guarded_of_noPath {s : State} (agrees : s.pathAgrees) (ascending : Ascending s.zones) (path : s.path = none) :
    Guarded s := ⟨agrees, ascending, by simp [path], by simp [path], by simp [path]⟩

theorem Quiet.guarded {s t : State} (h : Quiet s t) (guarded : Guarded s) : Guarded t where
  agrees := h.pathAgrees guarded.agrees
  ascending := h.zones.ascending guarded.ascending
  covers := by simpa only [h.path, h.settings] using guarded.covers
  ref := by simpa only [h.path, h.ref] using guarded.ref
  kept p holds moves := by
    rw [h.path] at holds
    exact h.zones.kept _ (guarded.ref p holds) guarded.ascending (guarded.kept p holds moves)

theorem ascending_unrigZones {zones : List Zone} (h : Ascending zones) : Ascending (unrigZones zones).zones := by
  have number : ∀ z : Zone, (if z.waits then { z with state := .active } else z).number = z.number := fun z => by
    split <;> rfl
  exact List.pairwise_map.2 ((h.filter _).imp fun less => by rwa [number, number])

/-- R121, R122: a motion that leaves the carrier moving passes the clearance check, or brakes within the old box. -/
theorem moves_kept {st : Settings} {zones : List Zone} {p : Path} {m : Motion} (hs : 0 < st.stopRate)
    (covers : p.covers st.stopRate = true) (kept : p.vel ≠ Vec.zero → keptIn zones p.box = true) (h : Moves st zones p m)
    (moving : m.vel ≠ Vec.zero) : keptIn zones m.box = true := by
  cases h with
  | rest => exact absurd rfl moving
  | accepted c _ clear => exact (Bool.and_eq_true_iff.1 clear).2
  | braked =>
    have moved : p.vel ≠ Vec.zero := fun rest => moving (by simp [brake, rest, Vec.map, Vec.zero, brakeComponent])
    obtain ⟨z, mem, kind, force, holds⟩ := (keptIn_iff ..).1 (kept moved)
    exact (keptIn_iff ..).2 ⟨z, mem, kind, force, Laws.contains_trans _ _ _ holds (contains_brake hs covers)⟩

theorem Change.guarded {c : Instr} {s t : State} (made : Change c s t) (guarded : Guarded s) : Guarded t := by
  have agrees := made.pathAgrees guarded.agrees
  have ⟨(rigged : s.rigged = _), rate⟩ := guarded.agrees
  have ⟨_, ascending, covers, ref, kept⟩ := guarded
  cases made with
  | clear _ left => exact left.guarded guarded
  | set _ _ _ _ _ st frozen bounds =>
    refine ⟨agrees, ascending, fun p holds => ?_, ref, kept⟩
    obtain ⟨-, -, -, -, same⟩ := (frozen (rigged_of_path guarded.agrees holds)).bounds
    exact same ▸ covers p holds
  | servo p rig holds =>
    have motion := moves_motionOf s p (effectiveCap s).1
    refine ⟨agrees, ascending, fun q moved => ?_, fun q moved => ?_, fun q moved => ?_⟩
    all_goals obtain rfl := Option.some.inj moved
    · exact (covers_iff ..).2 (moves_holds rate motion)
    · exact zoneRef_stands (s := stepPath s p) rig rfl
    · exact moves_kept rate (covers p holds) (kept p holds) motion
  | freeze =>
    refine ⟨agrees, ascending, fun q frozen => ?_, fun q frozen => ?_, fun q frozen moving => ?_⟩
    all_goals obtain ⟨p, holds, rfl⟩ := Option.map_eq_some_iff.1 frozen
    · exact (covers_atRest rfl).2 ((covers_iff ..).1 (covers p holds)).1
    · exact ref p holds
    · exact absurd rfl moving
  | commit p tag pose =>
    refine ⟨agrees, ascending, fun q committed => ?_, fun q committed => ?_, fun q committed moving => ?_⟩
    all_goals obtain rfl := Option.some.inj committed
    · exact (covers_atRest rfl).2 (holds_point _)
    · exact zoneRef_settled (s := commitAt (Vec.micro pose) s) rfl
    · exact absurd rfl moving
  | unrig => exact guarded_of_noPath agrees (ascending_unrigZones ascending) rfl
  | reset => exact guarded_of_noPath agrees .nil rfl

/-- Settles O6: every change and every event that leaves the flight alone keeps what the stopping box rests on. -/
theorem movingBoxLiesInKeepIn : Obligations.MovingBoxLiesInKeepIn := fun _ _ clear legal kept run p holds moving =>
  have after := step_keeps_of Quiet.guarded Change.guarded (guarded_of_boxClear clear legal kept) run
  (keptIn_iff ..).1 (after.kept p holds moving)

/-! ## Line lengths (R123) -/

/-- R3, R5: each line to the pose has a length within its bounds. -/
def InReach (st : Settings) (pose : Vec3) : Prop := ∀ w,
  (1000 * st.lenMin.get w) ^ 2 ≤ squaredDistance (st.anchor.get w) pose ∧
    squaredDistance (st.anchor.get w) pose ≤ (1000 * st.lenMax.get w) ^ 2

/-- R123: each commanded length lies within its bounds. -/
def LengthsInRange (st : Settings) (lengths : Quad Int) : Prop := ∀ w,
  1000 * st.lenMin.get w ≤ lengths.get w ∧ lengths.get w ≤ 1000 * st.lenMax.get w

def NonnegLengths (st : Settings) : Prop := ∀ w, 0 ≤ st.lenMin.get w ∧ 0 ≤ st.lenMax.get w

theorem lengthsAgree_iff (s : State) : s.lengthsAgree ↔
    NonnegLengths s.settings ∧ (s.path = none → s.refBox = none ∧ NoneOverdue s.zones) ∧
      ∀ p, s.path = some p → Ranged s.settings s.zones ∧ InReach s.settings p.pose ∧ LengthsInRange s.settings p.lengths := by
  simp only [State.lengthsAgree, NonnegLengths, NoneOverdue, Ranged, Zone.ranged, InReach, LengthsInRange, ← forall_and,
    and_assoc]

/-- The square at a point between the ends is at most that at one of them. -/
theorem sq_le_farSquare (a lo hi c : Int) (hl : lo ≤ c) (hh : c ≤ hi) : (c - a) * (c - a) ≤ farSquare a lo hi := by
  rcases le_total a c with right | left
  · exact (mul_self_le_mul_self (by omega) (by omega)).trans (le_max_right ..)
  · exact le_max_of_le_left (by nlinarith)

/-- R5: a pose in a box that passes the line-range test is in reach. -/
theorem inReach_of_ranged {st : Settings} {z : Zone} {pose : Vec3} (ranged : Zone.ranged st z)
    (holds : z.shrunk.holds pose = true) : InReach st pose := fun w => by
  obtain ⟨lx, hx, ly, hy, lz, hz⟩ := (holds_iff ..).1 holds
  obtain ⟨corners, near⟩ := (lineRangeAt_iff _ _ _ z.shrunk ⟨lx.trans hx, ly.trans hy, lz.trans hz⟩).1 (ranged w)
  have far := (farSquares_le_iff ..).2 corners
  have := sq_le_farSquare (1000 * (st.anchor.get w).x) _ _ _ lx hx
  have := sq_le_farSquare (1000 * (st.anchor.get w).y) _ _ _ ly hy
  have := sq_le_farSquare (1000 * (st.anchor.get w).z) _ _ _ lz hz
  refine ⟨near pose holds, ?_⟩
  rw [squaredDistance_axes]
  linarith

theorem lineLengths_inRange {st : Settings} {pose : Vec3} (nonneg : NonnegLengths st) (reach : InReach st pose) :
    LengthsInRange st (lineLengths st.anchor pose) := fun w => by
  have distance : 0 ≤ squaredDistance (st.anchor.get w) pose := vec_sq_nonneg _
  obtain ⟨least, greatest⟩ := nonneg w
  obtain ⟨near, far⟩ := reach w
  rw [pow_two] at near far
  rw [lineLengths, quad_get_map]
  exact ⟨(roundedRoot_bounds _ _ distance (by omega)).2 near, (roundedRoot_bounds _ _ distance (by omega)).1 far⟩

/-- What the line lengths rest on: with the stopping box in a keep-in that passed the line-range test, the pose is in
reach. -/
structure Ranging (s : State) : Prop extends Guarded s where
  nonneg : NonnegLengths s.settings
  offline : s.path = none → s.refBox = none ∧ NoneOverdue s.zones
  flying : ∀ p, s.path = some p →
    Ranged s.settings s.zones ∧ InReach s.settings p.pose ∧ LengthsInRange s.settings p.lengths

theorem offline_of_noPath {s : State} (agrees : s.pathAgrees) (path : s.path = none) : s.rigged = false := by
  rw [agrees.1, path]
  rfl

theorem Quiet.ranging {s t : State} (h : Quiet s t) (ranging : Ranging s) : Ranging t where
  toGuarded := h.guarded ranging.toGuarded
  nonneg := by simpa only [h.settings] using ranging.nonneg
  offline path := by
    have offline := offline_of_noPath ranging.agrees (h.path ▸ path)
    obtain ⟨noRef, fine⟩ := ranging.offline (h.path ▸ path)
    rw [← zoneRef_offline offline] at noRef
    exact ⟨by rw [← zoneRef_offline (h.rigged.trans offline), h.ref, noRef], h.zones.overdue noRef fine⟩
  flying p holds := by
    rw [h.path] at holds
    obtain ⟨ranged, reach, lengths⟩ := ranging.flying p holds
    rw [h.settings]
    exact ⟨h.zones.ranged (rigged_of_path ranging.agrees holds) ranged, reach, lengths⟩

/-- R121, R123: a motion ends where it began, or in a keep-in in force, so it ends in reach. -/
theorem moves_inReach {st : Settings} {zones : List Zone} {p : Path} {m : Motion} (hs : 0 < st.stopRate)
    (covers : p.covers st.stopRate = true) (kept : p.vel ≠ Vec.zero → keptIn zones p.box = true)
    (ranged : Ranged st zones) (reach : InReach st p.pose) (h : Moves st zones p m) : InReach st m.pose := by
  by_cases still : m.vel = Vec.zero
  · rwa [moves_still h still]
  · obtain ⟨z, mem, kind, force, around⟩ := (keptIn_iff ..).1 (moves_kept hs covers kept h still)
    exact inReach_of_ranged (ranged z mem kind force) (Laws.contains_trans _ _ _ around (moves_holds hs h).1)

theorem commitChecks_pass {s : State} {pose : Vec3} (passes : commitFault s pose = none) :
    ∀ check ∈ commitChecks s pose, check = none := fun check mem => by
  obtain ⟨i, found⟩ := List.mem_iff_getElem?.1 mem
  have pass := List.findSome?_eq_none_iff.1 passes (check, 1 + i) (List.mk_add_mem_zipIdx_iff_getElem?.2 found)
  simpa using pass

/-- R16: the pose of a commit that passes is in reach, and so is every ACTIVE keep-in. -/
theorem ranged_of_commit {s : State} {pose : Vec3} (passes : commitFault s pose = none) :
    InReach s.settings pose ∧ ∀ z ∈ s.zones, z.kind = .keepIn → z.state = .active → Zone.ranged s.settings z := by
  have pass := commitChecks_pass passes
  simp only [commitChecks, List.forall_mem_cons] at pass
  obtain ⟨-, -, -, -, -, -, -, -, near, -, keepIns, -⟩ := pass
  constructor
  · intro w
    rw [failingWinch, Option.map_eq_none_iff, winches_find?_eq_none_iff] at near
    rw [squaredDistance_eq]
    exact (poseOutOfRange_iff ..).1 (near w)
  · intro z mem kind active
    rw [keepInOutOfRange, Option.map_eq_none_iff, List.find?_eq_none] at keepIns
    exact (keepInOutOfRange_test_iff ..).1 (by simpa using keepIns z mem) kind active

theorem noneOverdue_unrigZones (zones : List Zone) : NoneOverdue (unrigZones zones).zones := fun z mem kind overdue => by
  obtain ⟨y, left, rfl⟩ := List.mem_map.1 mem
  split at overdue
  · simp at overdue
  next quiet => simp_all [Zone.lapsesAtUnrig]

theorem Change.ranging {c : Instr} {s t : State} (made : Change c s t) (ranging : Ranging s) : Ranging t := by
  have guarded := made.guarded ranging.toGuarded
  have ⟨⟨agrees, _, covers, _, kept⟩, nonneg, offline, flying⟩ := ranging
  cases made with
  | clear _ left => exact left.ranging ranging
  | set _ _ _ _ _ st frozen bounds =>
    refine ⟨guarded, bounds.lengths nonneg, offline, fun p holds => ?_⟩
    obtain ⟨anchor, least, greatest, -, -⟩ := (frozen (rigged_of_path agrees holds)).bounds
    have held := flying p holds
    simp only [Ranged, Zone.ranged, InReach, LengthsInRange] at held ⊢
    simpa only [anchor, least, greatest] using held
  | servo p rig holds =>
    refine ⟨guarded, nonneg, fun none_ => absurd none_ (by simp [stepPath]), fun q moved => ?_⟩
    obtain rfl := Option.some.inj moved
    obtain ⟨ranged, reach, lengths⟩ := flying p holds
    have reach' := moves_inReach agrees.2 (covers p holds) (kept p holds) ranged reach
      (moves_motionOf s p (effectiveCap s).1)
    refine ⟨ranged, reach', ?_⟩
    unfold pathAfter
    dsimp only
    split
    · exact lineLengths_inRange nonneg reach'
    · exact lengths
  | freeze =>
    refine ⟨guarded, nonneg, fun none_ => offline (Option.map_eq_none_iff.1 none_), fun q frozen => ?_⟩
    obtain ⟨p, holds, rfl⟩ := Option.map_eq_some_iff.1 frozen
    exact flying p holds
  | commit _ _ pose free passes =>
    refine ⟨guarded, nonneg, fun none_ => absurd none_ (by simp [commitAt]), fun q committed => ?_⟩
    obtain rfl := Option.some.inj committed
    obtain ⟨reach, keepIns⟩ := ranged_of_commit passes
    have noPath : s.path = none := by simpa [agrees.1] using free
    refine ⟨fun z mem kind force => ?_, reach, lineLengths_inRange nonneg reach⟩
    rcases force with active | overdue
    · exact keepIns z mem kind active
    · exact absurd overdue ((offline noPath).2 z mem kind)
  | unrig =>
    exact ⟨guarded, nonneg, fun _ => ⟨rfl, noneOverdue_unrigZones s.zones⟩, fun _ none_ => nomatch none_⟩
  | reset =>
    have nonneg : NonnegLengths Settings.reset := by
      unfold NonnegLengths
      decide
    exact ⟨guarded, nonneg, fun _ => ⟨rfl, fun _ mem => nomatch mem⟩, fun _ none_ => nomatch none_⟩

/-- Settles O7: every change and every event that leaves the flight alone keeps what the line lengths rest on. -/
theorem lineLengthsStayInRange : Obligations.LineLengthsStayInRange := fun s t clear legal kept lengths run => by
  obtain ⟨nonneg, offline, flying⟩ := (lengthsAgree_iff s).1 lengths
  have after : Ranging t := step_keeps_of Quiet.ranging Change.ranging
    ⟨guarded_of_boxClear clear legal kept, nonneg, offline, flying⟩ run
  exact (lengthsAgree_iff t).2 ⟨after.nonneg, after.offline, after.flying⟩

end Sys2Proof.Proofs
end

section
namespace Sys2Proof.Proofs
open Sys2Proof.Machine

/-! ## What a winch is formed from (R129, R135, R136) -/

theorem quad_get_set_same {α : Type} (q : Quad α) (w : Winch) (a : α) : (q.set w a).get w = a := by
  rw [quad_get_set, if_pos rfl]

theorem quad_set_set {α : Type} (q : Quad α) (w : Winch) (a b : α) : (q.set w a).set w b = q.set w b := by
  fin_cases w <;> rfl

theorem oct_get_set_same {α : Type} (q : Oct α) (l : Lane) (a : α) : (q.set l a).get l = a := by
  rw [oct_get_set, if_pos rfl]

theorem oct_set_set {α : Type} (q : Oct α) (l : Lane) (a b : α) : (q.set l a).set l b = q.set l b := by
  fin_cases l <;> rfl

/-- R135, R136: what holds of the winch formed holds, in each of the five ways, of what the fresh cells give. -/
theorem formWinch_ways {a b : Bool} {freshA freshB : Prop} (ha : a = true ↔ freshA) (hb : b = true ↔ freshB)
    (tolerance : Int) (r : WinchRec) (P : WinchRec → Prop) (formed : P (formWinch tolerance a b r)) :
    (freshA → freshB → |r.cellA - r.cellB| ≤ tolerance →
      P { r with tension := (r.cellA + r.cellB) / 2, flag := .pair }) ∧
    (freshA → freshB → tolerance < |r.cellA - r.cellB| →
      P { r with tension := max r.cellA r.cellB, flag := .disagree }) ∧
    (freshA → ¬freshB → P { r with tension := r.cellA, flag := .single }) ∧
    (¬freshA → freshB → P { r with tension := r.cellB, flag := .single }) ∧
    (¬freshA → ¬freshB → P { r with flag := .none }) := by
  obtain rfl := propext ha
  obtain rfl := propext hb
  cases a <;> cases b <;> simp only [formWinch, Bool.false_eq_true, not_true_eq_false, not_false_eq_true, true_imp_iff,
    false_imp_iff, and_true, true_and] at formed ⊢
  case true.true =>
    refine ⟨fun near => ?_, fun far => ?_⟩
    · rwa [if_pos near] at formed
    · rwa [if_neg (not_le.2 far)] at formed
  all_goals exact formed

/-- R136: the winch that a freshness update forms. -/
def reformed (s : State) (w : Winch) : WinchRec :=
  formWinch s.settings.disagreeTol (cellFresh s.settings s.tension w .a) (cellFresh s.settings s.tension w .b)
    (s.tension.winches.get w)

theorem reformWinch_eq (s : State) (w : Winch) : reformWinch s w = s.setWinch w (reformed s w) := rfl

theorem formTensionCap_offline (s : State) (h : s.rigged = false) : formTensionCap s = s := by
  rw [formTensionCap, if_neg (by simp [h])]

theorem formTensionCap_rigged (s : State) (h : s.rigged = true) : formTensionCap s =
    { s with tension := { s.tension with cap := tensionCapOf s.settings s.tension.winches } } := by
  rw [formTensionCap, if_pos h]

/-- R136, R138: while rigged a freshness update forms the winch and the cap, and reports a winch left at NONE. -/
theorem freshnessUpdate_rigged (s : State) (w : Winch) (h : s.rigged = true) :
    let winches' := s.tension.winches.set w (reformed s w)
    freshnessUpdate s w = { s with
      tension := ⟨s.tension.lanes, winches', tensionCapOf s.settings winches'⟩
      hands := { s.hands with
        faults := s.hands.faults ++ if (reformed s w).flag = .none then [⟨.senseLost, some w⟩] else [] } } := by
  intro winches'
  have cap : formTensionCap (reformWinch s w) =
      { s with tension := ⟨s.tension.lanes, winches', tensionCapOf s.settings winches'⟩ } :=
    formTensionCap_rigged (reformWinch s w) h
  have rig : (formTensionCap (reformWinch s w)).rigged = true := by rw [cap]; exact h
  have flag : ((formTensionCap (reformWinch s w)).tension.winches.get w).flag = (reformed s w).flag := by
    rw [cap]; exact congrArg WinchRec.flag (quad_get_set_same ..)
  have ends : freshnessUpdate s w = if (reformed s w).flag = .none then
      (formTensionCap (reformWinch s w)).handFault .senseLost (some w) else formTensionCap (reformWinch s w) := by
    simp only [freshnessUpdate, rig, flag, Bool.true_and, beq_iff_eq]
  rw [ends, cap]
  by_cases lost : (reformed s w).flag = .none
  · rw [if_pos lost, if_pos lost, handFault_eq]
  · rw [if_neg lost, if_neg lost, List.append_nil]

end Sys2Proof.Proofs
end

section
namespace Sys2Proof.Proofs
open Sys2Proof.Machine

/-! ## A lane check starts (R139) -/

theorem exec_laneCheck (p : Port) (tag : Byte) (n : Nat) (s : State) (takes : s.takes p (.laneCheck p tag n) = true) :
    exec (.laneCheck p tag n) s = .next (laneCheck p tag n (s.served p (.laneCheck p tag n) [] [])) :=
  congrArg Host.Outcome.next (take_of_takes s p tag _ _ takes)

theorem laneOf_val (l : Lane) : laneOf l.val = some l := dif_pos l.isLt

theorem laneCheck_outOfRange (p : Port) (tag : Byte) (n : Nat) (s : State) (h : 8 ≤ n) :
    laneCheck p tag n s = s.close p tag .outOfRange n 0 := by
  rw [laneCheck, laneOf, dif_neg (not_lt.2 h)]

section Lane

variable (p : Port) (tag : Byte) (l : Lane) (s : State)

theorem laneCheck_rigged (rigged : s.rigged = true) :
    laneCheck p tag l.val s = s.close p tag .wrongMode l.val 0 := by
  simp only [laneCheck, laneOf_val, if_pos rigged]

theorem laneCheck_unmapped (free : s.rigged = false) (unmapped : s.settings.laneMap.get l = none) :
    laneCheck p tag l.val s = s.close p tag .conflict l.val 1 := by
  simp [laneCheck, laneOf_val, free, unmapped]

theorem laneCheck_checking (free : s.rigged = false) (mapped : s.settings.laneMap.get l ≠ none)
    (checking : (s.tension.lanes.get l).state = .checking) :
    laneCheck p tag l.val s = s.close p tag .conflict l.val 2 := by
  simp [laneCheck, laneOf_val, free, mapped, checking]

theorem laneCheck_starts (free : s.rigged = false) (mapped : s.settings.laneMap.get l ≠ none)
    (idle : (s.tension.lanes.get l).state ≠ .checking) : laneCheck p tag l.val s = startCheck p tag l s := by
  simp [laneCheck, laneOf_val, free, mapped, idle]

/-- R139: the part once the check of lane `l` has entered service at `p`, its winches as `winches` gives them. -/
def checkEntered (winches : Quad WinchRec) : State :=
  let r := s.tension.lanes.get l
  let r' := { r with
    state := .checking, history := [], samples := 0, valid := false, watch := true, check := some ⟨none, 0⟩ }
  let u := State.served { s with tension := { s.tension with lanes := s.tension.lanes.set l r', winches := winches } }
    p (.laneCheck p tag l.val) [] [.lane .checkStarted l .checking r.state (s.settings.laneMap.get l) 0]
  u.setPort p { u.port p with service := some ⟨.laneCheck l, tag, 0⟩ }

/-- A check that starts leaves the winches, and a GOOD lane's winch is re-formed. -/
theorem startCheck_eq : startCheck p tag l (s.served p (.laneCheck p tag l.val) [] []) =
    if (s.tension.lanes.get l).state = .good then
      freshnessOf (checkEntered p tag l s s.tension.winches) (s.settings.laneMap.get l)
    else checkEntered p tag l s s.tension.winches := by
  have enters : (State.laneNotice ((s.served p (.laneCheck p tag l.val) [] []).setLane l
        { (s.tension.lanes.get l).emptied with state := .checking, watch := true, check := some ⟨none, 0⟩ })
      l .checkStarted (s.tension.lanes.get l).state 0).serve p tag (.laneCheck l) =
      checkEntered p tag l s s.tension.winches := by
    simp [State.laneNotice, State.setLane, LaneRec.emptied, checkEntered, serve_eq, oct_get_set_same]
  rw [← enters]
  simp only [startCheck, served_tension, served_settings]

/-- R136: while OFFLINE a freshness update, at a lane whose check has just started, forms the winch from the cells that
are still fresh. -/
theorem freshnessUpdate_checkEntered (w : Winch) (free : s.rigged = false) :
    freshnessUpdate (checkEntered p tag l s s.tension.winches) w = checkEntered p tag l s
      (s.tension.winches.set w (reformed (checkEntered p tag l s s.tension.winches) w)) := by
  have off : (checkEntered p tag l s s.tension.winches).rigged = false := by
    cases p <;> exact free
  rw [freshnessUpdate_offline _ w off, reformWinch_eq]
  cases p <;> rfl

variable (takes : s.takes p (.laneCheck p tag l.val) = true) (free : s.rigged = false)
include takes free

theorem exec_laneCheck_idle (mapped : s.settings.laneMap.get l ≠ none)
    (idle : (s.tension.lanes.get l).state ≠ .checking) (bad : (s.tension.lanes.get l).state ≠ .good) :
    exec (.laneCheck p tag l.val) s = .next (checkEntered p tag l s s.tension.winches) := by
  rw [exec_laneCheck _ _ _ _ takes, laneCheck_starts _ _ _ _ (by simpa using free) (by simpa using mapped)
    (by simpa using idle), startCheck_eq, if_neg bad]

theorem exec_laneCheck_good (w : Winch) (cell : Cell) (map : s.settings.laneMap.get l = some ⟨w, cell⟩)
    (good : (s.tension.lanes.get l).state = .good) :
    exec (.laneCheck p tag l.val) s = .next (checkEntered p tag l s
      (s.tension.winches.set w (reformed (checkEntered p tag l s s.tension.winches) w))) := by
  rw [exec_laneCheck _ _ _ _ takes, laneCheck_starts _ _ _ _ (by simpa using free) (by simp [map])
    (by simp [good]), startCheck_eq, if_pos good, map]
  exact congrArg Host.Outcome.next (freshnessUpdate_checkEntered p tag l s w free)

end Lane

/-! ## A lane check runs and ends (R140, R133, R170) -/

/-- R140: the pattern codes must alternate, and either may come first. -/
theorem admits_iff (c : Check) (codes : BitVec 16 × BitVec 16) (word : BitVec 16) : c.admits codes word = true ↔
    word = codes.1 ∧ c.last ≠ some codes.1 ∨ word = codes.2 ∧ (c.last = none ∨ c.last = some codes.1) := by
  cases last : c.last with
  | none => simp [Check.admits, last]
  | some code => by_cases first : code = codes.1 <;> simp [Check.admits, last, first]

theorem told_service (s : State) (ns : List Notice) (q : Port) : ((s.told ns).port q).service = (s.port q).service := by
  obtain ⟨-, -, service, -⟩ := heard_keeps (s.port q) ns
  cases q <;> exact service

section Running

variable (p : Port) (v : Service) (l : Lane) (word : BitVec 16) (check : Check) (s : State)

/-- R140, R170: the part once the check that `p` holds has ended, the lane left in `st`. -/
def checkEnded (st : LaneState) (watch : Bool) (reason : LaneReason) (status : Status) (n : Nat) : State :=
  let r := s.tension.lanes.get l
  let t := State.told { s with tension := { s.tension with
      lanes := s.tension.lanes.set l { r with state := st, watch := watch, check := none } } }
    [.lane reason l st .checking (s.settings.laneMap.get l) n]
  t.setPort p (PortRec.answered { t.port p with service := none } [closing v.tag status l.val n])

section Held

variable (service : (s.port p).service = some v) (work : v.work = .laneCheck l)
  (others : ∀ q, q ≠ p → (s.port q).checks l = false)
include service work others

/-- The end of a check: the lane's change, its notice, and the CLOSE at the port that holds the check. -/
theorem closeCheck_laneNotice (st : LaneState) (watch : Bool) (reason : LaneReason) (status : Status) (n : Nat) :
    closeCheck ((s.setLane l { s.tension.lanes.get l with state := st, watch := watch, check := none }).laneNotice l
      reason .checking n) l status n = checkEnded p v l s st watch reason status n := by
  have same : ∀ q, ((State.laneNotice (s.setLane l { s.tension.lanes.get l with
      state := st, watch := watch, check := none }) l reason .checking n).port q).service = (s.port q).service :=
    fun q => by
      rw [State.laneNotice, notify_told, told_service]
      cases q <;> rfl
  rw [closeCheck_eq _ p l status n v ((same p).trans service) work fun q ne => by
    simpa only [PortRec.checks, same] using others q ne]
  simp only [State.laneNotice, State.setLane, oct_get_set_same]
  rfl

variable (progress : (s.tension.lanes.get l).check = some check)
include progress

theorem failCheck_eq (mark : Nat) : failCheck s l mark =
    checkEnded p v l s .bad false .checkFailed .conflict (mark + check.matched) := by
  rw [← closeCheck_laneNotice p v l s service work others]
  simp only [failCheck, progress, Option.map_some, Option.getD_some]

theorem checkSample_fails (no : check.admits (s.settings.lanePattern.get l) word = false) :
    checkSample s l word = checkEnded p v l s .bad false .checkFailed .conflict check.matched := by
  have failed := failCheck_eq p v l check s service work others progress 0
  rw [Nat.zero_add] at failed
  simp only [checkSample, progress, Option.getD_some, no, Bool.false_eq_true, if_false, failed]

theorem checkSample_passes (match_ : check.admits (s.settings.lanePattern.get l) word = true) (last : check.matched = 63) :
    checkSample s l word = checkEnded p v l s .good true .checkPassed .ok 64 := by
  rw [← closeCheck_laneNotice p v l s service work others]
  simp only [checkSample, progress, Option.getD_some, match_, last, if_true]

end Held

theorem checkSample_counts (progress : (s.tension.lanes.get l).check = some check)
    (match_ : check.admits (s.settings.lanePattern.get l) word = true) (more : check.matched + 1 < 64) :
    checkSample s l word = s.setLane l { s.tension.lanes.get l with
      watch := true, check := some ⟨some word, check.matched + 1⟩ } := by
  simp only [checkSample, progress, Option.getD_some, match_, if_true]
  exact if_neg more.ne

theorem sampleArrival_checking (checking : (s.tension.lanes.get l).state = .checking) :
    sampleArrival l word s = checkSample s l word := by
  simp only [sampleArrival, checking]

theorem silenceExpiry_checking (watch : (s.tension.lanes.get l).watch = true)
    (checking : (s.tension.lanes.get l).state = .checking) : silenceExpiry l s = failCheck s l 0x80 := by
  simp only [silenceExpiry, watch, checking, if_true]

end Running

/-- Settles O49: a LANE_CHECK is refused or enters service, and each word of a check counts, ends it or fails it. -/
theorem laneCheckRunsAndEnds : Obligations.LaneCheckRunsAndEnds := by
  refine ⟨?starts, ?range, ?runs⟩
  case starts =>
    intro p tag l s c takes r refusal r' lanes' enters
    refine ⟨fun free mapped idle bad => exec_laneCheck_idle p tag l s takes free mapped idle bad,
      fun w cell free map good => ?reforms, fun rigged => ?_, fun free unmapped => ?_, fun free mapped checking => ?_⟩
    case reforms =>
      intro old formed fresh
      have cells : ∀ x, cellFresh (checkEntered p tag l s s.tension.winches).settings
          (checkEntered p tag l s s.tension.winches).tension w x = true ↔ fresh x := fun x => by
        rw [cellFresh_iff]
        cases p <;> exact Iff.rfl
      have old_eq : (checkEntered p tag l s s.tension.winches).tension.winches.get w = old := by cases p <;> rfl
      have tol : (checkEntered p tag l s s.tension.winches).settings.disagreeTol = s.settings.disagreeTol := by
        cases p <;> rfl
      have run := exec_laneCheck_good p tag l s takes free w cell map good
      rw [reformed, tol, old_eq] at run
      exact formWinch_ways (cells .a) (cells .b) s.settings.disagreeTol old
        (fun x => enters (s.tension.winches.set w x)) run
    · rw [exec_laneCheck _ _ _ _ takes, laneCheck_rigged _ _ _ _ (by simpa using rigged), served_close_nil]
    · show exec c s = _
      rw [exec_laneCheck _ _ _ _ takes, laneCheck_unmapped _ _ _ _ (by simpa using free)
        (by simpa using unmapped), served_close_nil]
    · show exec c s = _
      rw [exec_laneCheck _ _ _ _ takes, laneCheck_checking _ _ _ _ (by simpa using free)
        (by simpa using mapped) (by simpa using checking), served_close_nil]
  case range =>
    intro p tag n s takes wide
    rw [exec_laneCheck _ _ _ _ takes, laneCheck_outOfRange _ _ _ _ wide, served_close_nil]
  case runs =>
    intro p v l word check s r codes matching ended checking progress service work others
    have word_run : exec (.sampleArrival l word) s = .next (checkSample s l word) :=
      congrArg Host.Outcome.next (sampleArrival_checking l word s checking)
    have admits : check.admits codes word = true ↔ matching := admits_iff check codes word
    refine ⟨fun yes more => ?_, fun yes last => ?_, fun no => ?_, fun watch => ?_⟩
    · rw [word_run, checkSample_counts l word check s progress (admits.2 yes) more]
      rfl
    · rw [word_run, checkSample_passes p v l word check s service work others progress (admits.2 yes) last]
      rfl
    · rw [word_run, checkSample_fails p v l word check s service work others progress
        (Bool.eq_false_iff.2 (mt admits.1 no))]
      rfl
    · rw [show exec (.silenceExpiry l) s = .next (failCheck s l 0x80) from
        congrArg Host.Outcome.next (silenceExpiry_checking l s watch checking),
        failCheck_eq p v l check s service work others progress 0x80]
      rfl

end Sys2Proof.Proofs
end

section
namespace Sys2Proof.Proofs
open Sys2Proof.Machine

/-! ## A word and its output (R130 to R132, R134) -/

theorem convertWord_eq (format : LaneFormat) (word : BitVec 16) : convertWord format word =
    if format = .offset then (word.toNat : Int) - 32768 else word.toInt := by
  cases format <;> rfl

theorem filterOf_eq (st : Settings) : filterOf st =
    if st.filterMode = .builtIn then List.replicate 12 341 else st.filterCoeff := by
  cases mode : st.filterMode <;> simp [filterOf, mode]

/-- R130, R133: lane `l` with a word taken into its history, the watch armed while GOOD. -/
def wordPushed (s : State) (l : Lane) (word : BitVec 16) : LaneRec :=
  let r := s.tension.lanes.get l
  { r.push (gainedValue (s.settings.laneGain.get l) (convertWord (s.settings.laneFormat.get l) word)) with
    watch := r.watch || r.state == .good }

/-- R131, R132: the output of a full history. -/
def wordOutput (s : State) (l : Lane) (word : BitVec 16) : Int :=
  scaleOutput (s.settings.laneScale.get l) (filterOutput (filterOf s.settings) (wordPushed s l word).history)

/-- R131: lane `l` with a word taken and its output delivered. -/
def wordFilled (s : State) (l : Lane) (word : BitVec 16) : LaneRec :=
  { wordPushed s l word with latest := wordOutput s l word, valid := true }

section Sample

variable (s : State) (l : Lane) (word : BitVec 16)

theorem wordPushed_eq :
    (let pushed := (s.tension.lanes.get l).push
        (gainedValue (s.settings.laneGain.get l) (convertWord (s.settings.laneFormat.get l) word))
      if (s.tension.lanes.get l).state = .good then { pushed with watch := true } else pushed) = wordPushed s l word := by
  by_cases good : (s.tension.lanes.get l).state = .good <;> simp [wordPushed, LaneRec.push, good]

theorem historySample_short (short : (wordPushed s l word).samples ≠ 12) :
    historySample s l word = s.setLane l (wordPushed s l word) := by
  simp only [historySample, wordPushed_eq]
  exact if_neg short

/-- R131, R135: an output of a lane that is not GOOD, or serves no winch, stays in the lane. -/
theorem historySample_unserved (full : (wordPushed s l word).samples = 12)
    (unserved : (s.tension.lanes.get l).state ≠ .good ∨ s.settings.laneMap.get l = none) :
    historySample s l word = s.setLane l (wordFilled s l word) := by
  simp only [historySample, wordPushed_eq]
  rw [if_pos full]
  split
  next good map => simp [good, map] at unserved
  next => rfl

theorem historySample_served (full : (wordPushed s l word).samples = 12) (w : Winch) (cell : Cell)
    (good : (s.tension.lanes.get l).state = .good) (map : s.settings.laneMap.get l = some ⟨w, cell⟩) :
    historySample s l word = outputUpdate (s.setLane l (wordFilled s l word)) w cell (wordOutput s l word) := by
  simp only [historySample, wordPushed_eq]
  rw [if_pos full]
  split
  next m _ named =>
    obtain rfl : ⟨w, cell⟩ = m := Option.some.inj (map.symm.trans named)
    rfl
  next unserved => exact absurd map (unserved _ good)

theorem sampleArrival_history (running : (s.tension.lanes.get l).state ≠ .checking)
    (heard : (s.tension.lanes.get l).state ≠ .stale) : sampleArrival l word s = historySample s l word := by
  unfold sampleArrival
  split
  next checking => exact absurd checking running
  next stale => exact absurd stale heard
  next => rfl

/-- R134: a word at a STALE lane restores it and begins a new history. -/
theorem sampleArrival_stale (stale : (s.tension.lanes.get l).state = .stale) :
    sampleArrival l word s = State.told { s with tension := { s.tension with
        lanes := s.tension.lanes.set l { s.tension.lanes.get l with
          state := .good
          history := [gainedValue (s.settings.laneGain.get l) (convertWord (s.settings.laneFormat.get l) word)]
          samples := 1, valid := false, watch := true } } }
      [.lane .restored l .good .stale (s.settings.laneMap.get l) 0] := by
  have restored : (restoreLane s l).tension.lanes.get l = { (s.tension.lanes.get l).emptied with state := .good } :=
    oct_get_set_same ..
  have pushed : wordPushed (restoreLane s l) l word = { s.tension.lanes.get l with
      state := .good
      history := [gainedValue (s.settings.laneGain.get l) (convertWord (s.settings.laneFormat.get l) word)]
      samples := 1, valid := false, watch := true } := by
    simp [wordPushed, restored, LaneRec.push, LaneRec.emptied]
  have run : sampleArrival l word s = historySample (restoreLane s l) l word := by simp only [sampleArrival, stale]
  rw [run, historySample_short _ _ _ (by simp [pushed]), pushed]
  simp [restoreLane, State.setLane, State.laneNotice, oct_get_set_same, oct_set_set]

end Sample

/-! ## An output re-forms its winch (R135, R137, R138) -/

/-- R135, R136: the tension and the flag of a winch from an output and from the winch's other cell. -/
def joined (tolerance : Int) (otherFresh : Bool) (v theirs : Int) : Int × SourceFlag :=
  if otherFresh then (if |v - theirs| ≤ tolerance then ((v + theirs) / 2, .pair) else (max v theirs, .disagree))
  else (v, .single)

/-- R129, R135: the winch formed from an output of cell `c`. -/
def outputJoined (tolerance : Int) (otherFresh : Bool) (c : Cell) (v : Int) (r : WinchRec) : WinchRec :=
  let formed := joined tolerance otherFresh v (if c = .a then r.cellB else r.cellA)
  { r with
    cellA := if c = .a then v else r.cellA, cellB := if c = .b then v else r.cellB
    tension := formed.1, flag := formed.2 }

/-- The other cell of a winch. -/
def otherCell (c : Cell) : Cell := if c = .a then .b else .a

/-- The rule for the two cells does not tell them apart. -/
theorem formWinch_setCell (tolerance : Int) (fresh : Cell → Bool) (c : Cell) (v : Int) (r : WinchRec)
    (mine : fresh c = true) : formWinch tolerance (fresh .a) (fresh .b) (r.setCell c v) =
      outputJoined tolerance (fresh (otherCell c)) c v r := by
  cases c with
  | a =>
    cases other : fresh .b with
    | false => simp [formWinch, WinchRec.setCell, outputJoined, joined, otherCell, mine, other]
    | true =>
      by_cases near : |v - r.cellB| ≤ tolerance <;>
        simp [formWinch, WinchRec.setCell, outputJoined, joined, otherCell, mine, other, near]
  | b =>
    cases other : fresh .a with
    | false => simp [formWinch, WinchRec.setCell, outputJoined, joined, otherCell, mine, other]
    | true =>
      by_cases near : |v - r.cellA| ≤ tolerance <;>
        simp [formWinch, WinchRec.setCell, outputJoined, joined, otherCell, mine, other, near,
          abs_sub_comm r.cellA v, add_comm r.cellA v, max_comm r.cellA v]

/-- R129: a lane decides the freshness of its own cell alone. -/
theorem cellFresh_set_other (st : Settings) (t : Tension) (l : Lane) (r : LaneRec) (winches : Quad WinchRec) (cap : Int)
    (w : Winch) (c : Cell) (other : st.laneMap.get l ≠ some ⟨w, c⟩) :
    cellFresh st ⟨t.lanes.set l r, winches, cap⟩ w c = cellFresh st t w c := by
  rw [Bool.eq_iff_iff, cellFresh_iff, cellFresh_iff]
  refine exists_congr fun k => and_congr_right fun map => ?_
  have apart : k ≠ l := by
    rintro rfl
    exact other map
  simp only [oct_get_set, if_neg apart]

theorem cellFresh_of_lane (st : Settings) (t : Tension) (l : Lane) (w : Winch) (c : Cell)
    (map : st.laneMap.get l = some ⟨w, c⟩) (good : (t.lanes.get l).state = .good)
    (valid : (t.lanes.get l).valid = true) : cellFresh st t w c = true :=
  (cellFresh_iff st t w c).2 ⟨l, map, good, valid⟩

/-- R135: the output of a GOOD lane re-forms its winch. -/
theorem reformWinch_output (s : State) (l : Lane) (r : LaneRec) (w : Winch) (c : Cell) (v : Int)
    (map : s.settings.laneMap.get l = some ⟨w, c⟩) (good : r.state = .good) (valid : r.valid = true) :
    reformWinch ((s.setLane l r).setWinch w ((s.tension.winches.get w).setCell c v)) w =
      (s.setLane l r).setWinch w (outputJoined s.settings.disagreeTol
        (cellFresh s.settings s.tension w (otherCell c)) c v (s.tension.winches.get w)) := by
  have mine : cellFresh s.settings ⟨s.tension.lanes.set l r,
      s.tension.winches.set w ((s.tension.winches.get w).setCell c v), s.tension.cap⟩ w c = true :=
    cellFresh_of_lane _ _ l w c map (by rw [oct_get_set_same]; exact good) (by rw [oct_get_set_same]; exact valid)
  have other := cellFresh_set_other s.settings s.tension l r
    (s.tension.winches.set w ((s.tension.winches.get w).setCell c v)) s.tension.cap w (otherCell c)
    (by rw [map]; cases c <;> simp [otherCell])
  have formed := formWinch_setCell s.settings.disagreeTol (cellFresh s.settings ⟨s.tension.lanes.set l r,
      s.tension.winches.set w ((s.tension.winches.get w).setCell c v), s.tension.cap⟩ w) c v (s.tension.winches.get w) mine
  rw [other] at formed
  rw [reformWinch, ← formed]
  simp only [State.setWinch, State.setLane, quad_get_set_same, quad_set_set]

theorem protectCount_decide (hit : Prop) [Decidable hit] (n : Nat) :
    protectCount (decide hit) n = if hit then min (n + 1) 3 else 0 := by
  simp [protectCount]

/-- R137: a winch with its protection counts taken. -/
def countedWinch (st : Settings) (w : Winch) (r : WinchRec) : WinchRec :=
  { r with
    overload := protectCount (decide (st.tensionMax.get w ≤ r.tension)) r.overload
    slack := protectCount (decide (r.tension ≤ st.tensionSlack.get w)) r.slack }

theorem protectWinch_offline (s : State) (w : Winch) (h : s.rigged = false) : protectWinch s w = s := by
  rw [protectWinch, if_neg (by simp [h])]

theorem protectWinch_rigged (s : State) (w : Winch) (h : s.rigged = true) :
    let r := countedWinch s.settings w (s.tension.winches.get w)
    protectWinch s w = { s.setWinch w r with
      hands := { s.hands with
        faults := s.hands.faults ++ (if r.overload = 3 then [⟨.overload, some w⟩] else [])
          ++ (if r.slack = 3 then [⟨.slack, some w⟩] else []) } } := by
  intro r
  have counts : protectWinch s w =
      let s1 := s.setWinch w r
      let s2 := if r.overload = 3 then s1.handFault .overload (some w) else s1
      if r.slack = 3 then s2.handFault .slack (some w) else s2 := if_pos h
  rw [counts]
  by_cases high : r.overload = 3 <;> by_cases low : r.slack = 3 <;> simp [high, low, State.setWinch]

section Output

variable (s : State) (l : Lane) (r : LaneRec) (w : Winch) (c : Cell) (v : Int)
  (map : s.settings.laneMap.get l = some ⟨w, c⟩) (good : r.state = .good) (valid : r.valid = true)
include map good valid

theorem outputUpdate_offline (h : s.rigged = false) : outputUpdate (s.setLane l r) w c v =
    (s.setLane l r).setWinch w (outputJoined s.settings.disagreeTol
      (cellFresh s.settings s.tension w (otherCell c)) c v (s.tension.winches.get w)) := by
  have formed := reformWinch_output s l r w c v map good valid
  have start : outputUpdate (s.setLane l r) w c v = formTensionCap (protectWinch
    (reformWinch ((s.setLane l r).setWinch w ((s.tension.winches.get w).setCell c v)) w) w) := rfl
  rw [start, formed, protectWinch_offline, formTensionCap_offline] <;> exact h

theorem outputUpdate_rigged (h : s.rigged = true) :
    let winch := countedWinch s.settings w (outputJoined s.settings.disagreeTol
      (cellFresh s.settings s.tension w (otherCell c)) c v (s.tension.winches.get w))
    let counted := s.tension.winches.set w winch
    outputUpdate (s.setLane l r) w c v = { s with
      tension := ⟨s.tension.lanes.set l r, counted, tensionCapOf s.settings counted⟩
      hands := { s.hands with
        faults := s.hands.faults ++ (if winch.overload = 3 then [⟨.overload, some w⟩] else [])
          ++ (if winch.slack = 3 then [⟨.slack, some w⟩] else []) } } := by
  intro winch counted
  have formed := reformWinch_output s l r w c v map good valid
  have start : outputUpdate (s.setLane l r) w c v = formTensionCap (protectWinch
    (reformWinch ((s.setLane l r).setWinch w ((s.tension.winches.get w).setCell c v)) w) w) := rfl
  rw [start, formed, protectWinch_rigged _ w (by exact h), formTensionCap_rigged _ (by exact h)]
  simp only [State.setWinch, State.setLane, quad_get_set_same, quad_set_set]
  rfl

end Output

/-! ## A silence (R133, R136) -/

section Silence

variable (l : Lane) (s : State)

/-- R133: the part once a silence has made GOOD lane `l` STALE, its winches and the cap as given. -/
def silenced (winches : Quad WinchRec) (cap : Int) : State :=
  State.told { s with tension :=
      ⟨s.tension.lanes.set l { s.tension.lanes.get l with state := .stale, watch := false }, winches, cap⟩ }
    [.lane .stale l .stale .good (s.settings.laneMap.get l) 0]

theorem silenceExpiry_idle (idle : (s.tension.lanes.get l).watch = false) : silenceExpiry l s = s := by
  simp only [silenceExpiry, idle, Bool.false_eq_true, if_false]

theorem silenceExpiry_good (watch : (s.tension.lanes.get l).watch = true) (good : (s.tension.lanes.get l).state = .good) :
    silenceExpiry l s = freshnessOf (silenced l s s.tension.winches s.tension.cap) (s.settings.laneMap.get l) := by
  simp [silenceExpiry, watch, good, silenced, State.laneNotice, State.setLane, oct_get_set_same]

/-- R133, R136, R138: a silence at a GOOD lane of winch `w` leaves that winch as `r`. -/
def SilenceForms (w : Winch) (r : WinchRec) : Prop :=
  let winches' := s.tension.winches.set w r
  (s.rigged = false → silenceExpiry l s = silenced l s winches' s.tension.cap) ∧
  (s.rigged = true → silenceExpiry l s = { silenced l s winches' (tensionCapOf s.settings winches') with
    hands := { s.hands with
      faults := s.hands.faults ++ if r.flag = .none then [⟨.senseLost, some w⟩] else [] } })

/-- R136: the winch of a lane that falls silent is formed from the cells that are still fresh. -/
theorem silenceForms_reformed (w : Winch) (cell : Cell) (watch : (s.tension.lanes.get l).watch = true)
    (good : (s.tension.lanes.get l).state = .good) (map : s.settings.laneMap.get l = some ⟨w, cell⟩) :
    SilenceForms l s w (reformed (silenced l s s.tension.winches s.tension.cap) w) := by
  have run : silenceExpiry l s = freshnessUpdate (silenced l s s.tension.winches s.tension.cap) w := by
    rw [silenceExpiry_good l s watch good, map]
    rfl
  refine ⟨fun free => ?_, fun rigged => ?_⟩
  · rw [run, freshnessUpdate_offline _ w (by exact free)]
    rfl
  · rw [run, freshnessUpdate_rigged _ w (by exact rigged)]
    rfl

end Silence

/-! ## The tension cap (R138) -/

/-- R138: the cap of a winch, SPEED_CAP where it sets none. -/
theorem winchCap_getD (st : Settings) (w : Winch) (n : Int) : (winchCap st w n).getD st.speedCap =
    if n ≤ st.tensionWarn.get w then st.speedCap
    else if n < st.tensionMax.get w then
      max (st.speedCap * (st.tensionMax.get w - n) / (st.tensionMax.get w - st.tensionWarn.get w))
        (min st.derateFloor st.speedCap)
    else min st.derateFloor st.speedCap := by
  unfold winchCap
  dsimp only
  split
  · rfl
  · split <;> rfl

/-- A share of SPEED_CAP does not pass SPEED_CAP. -/
theorem winchCap_le (st : Settings) (w : Winch) (n : Int) (nonneg : 0 ≤ st.speedCap)
    (ordered : st.tensionWarn.get w < st.tensionMax.get w) : (winchCap st w n).getD st.speedCap ≤ st.speedCap := by
  rw [winchCap_getD]
  split
  · exact le_rfl
  next above =>
    split
    · refine max_le (Int.ediv_le_of_le_mul (by omega) ?_) (min_le_right ..)
      exact mul_le_mul_of_nonneg_left (by omega) nonneg
    · exact min_le_right ..

/-- Below `top`, a winch that sets no cap counts as one that sets `top`. -/
theorem foldl_min_filterMap {α : Type} (f : α → Option Int) (top : Int) (ws : List α) (m : Int) (below : m ≤ top) :
    (ws.filterMap f).foldl min m = (ws.map (fun w => (f w).getD top)).foldl min m := by
  induction ws generalizing m with
  | nil => rfl
  | cons w ws ih =>
    cases cap : f w with
    | none => simpa [cap, min_eq_left below] using ih m below
    | some n => simpa [cap] using ih (min m n) (min_le_of_left_le below)

theorem tensionCapOf_eq (st : Settings) (t : Quad WinchRec) (nonneg : 0 ≤ st.speedCap)
    (ordered : ∀ w, st.tensionWarn.get w < st.tensionMax.get w) :
    let cap := fun w : Winch => (winchCap st w (t.get w).tension).getD st.speedCap
    tensionCapOf st t = min (min (cap 0) (cap 1)) (min (cap 2) (cap 3)) := by
  intro cap
  have start : min st.speedCap (cap 0) = cap 0 := min_eq_right (winchCap_le st 0 _ nonneg (ordered 0))
  calc tensionCapOf st t = (winches.map cap).foldl min st.speedCap := foldl_min_filterMap _ _ _ _ le_rfl
    _ = min (min (min (min st.speedCap (cap 0)) (cap 1)) (cap 2)) (cap 3) := rfl
    _ = min (min (cap 0) (cap 1)) (min (cap 2) (cap 3)) := by rw [start, min_assoc (min (cap 0) (cap 1))]

/-- Settles O50: a word by the state of its lane, a silence by its winch's fresh cells, and the tension cap. -/
theorem samplesBecomeWinchTension : Obligations.SamplesBecomeWinchTension := by
  refine ⟨?samples, ?silence, ?cap⟩
  case samples =>
    intro l word s st r x y pushed coeffs out v full
    have value : y = gainedValue (st.laneGain.get l) (convertWord (st.laneFormat.get l) word) := by
      rw [convertWord_eq]
      rfl
    have pushed_eq : pushed = wordPushed s l word := by
      simp only [pushed, value]
      rfl
    have v_eq : v = wordOutput s l word := by
      simp only [v, out, coeffs, pushed_eq, wordOutput, filterOf_eq]
      rfl
    have full_eq : full = wordFilled s l word := by
      simp only [full, pushed_eq, v_eq, wordFilled]
    have run : r.state ≠ .checking → r.state ≠ .stale →
        exec (.sampleArrival l word) s = .next (historySample s l word) :=
      fun running heard => congrArg Host.Outcome.next (sampleArrival_history s l word running heard)
    refine ⟨fun running heard short => ?_, fun state filled => ?_, fun w cell good filled map => ?output, fun stale => ?_⟩
    · rw [run running heard, historySample_short s l word (by rwa [← pushed_eq]), ← pushed_eq]
      rfl
    · have running : r.state ≠ .checking := by rcases state with h | h | ⟨h, -⟩ <;> simp [h]
      have heard : r.state ≠ .stale := by rcases state with h | h | ⟨h, -⟩ <;> simp [h]
      have unserved : r.state ≠ .good ∨ st.laneMap.get l = none := by rcases state with h | h | ⟨-, h⟩ <;> simp [h]
      rw [run running heard, historySample_unserved s l word (by rwa [← pushed_eq]) unserved, ← full_eq]
      rfl
    case output =>
      intro old other theirs formed winch high low counted
      have served : exec (.sampleArrival l word) s = .next (outputUpdate (s.setLane l full) w cell v) := by
        rw [run (by simp [good]) (by simp [good]),
          historySample_served s l word (by rwa [← pushed_eq]) w cell good map, ← full_eq, ← v_eq]
      refine ⟨fun free => ?_, fun rigged => ?_⟩
      · rw [served, outputUpdate_offline s l full w cell v map good rfl free]
        rfl
      · have update := outputUpdate_rigged s l full w cell v map good rfl rigged
        simp only [countedWinch, protectCount_decide] at update
        rw [served, update]
        rfl
    · rw [value]
      exact congrArg Host.Outcome.next (sampleArrival_stale s l word stale)
  case silence =>
    intro l s r lanes' t news
    refine ⟨fun idle => congrArg Host.Outcome.next (silenceExpiry_idle l s idle), fun watch good unmapped => ?_,
      fun w cell watch good map => ?_⟩
    · refine congrArg Host.Outcome.next ((silenceExpiry_good l s watch good).trans ?_)
      rw [unmapped, silenced, unmapped]
      rfl
    · intro old formed fresh
      have cells : ∀ x, cellFresh s.settings (silenced l s s.tension.winches s.tension.cap).tension w x = true ↔ fresh x :=
        cellFresh_iff s.settings _ w
      have forms : ∀ x n flag lost, SilenceForms l s w x → x = { old with tension := n, flag := flag } →
          (if flag = .none then [⟨.senseLost, some w⟩] else []) = lost → formed n flag lost := by
        rintro _ n flag _ ⟨free, rigged⟩ rfl rfl
        refine ⟨fun h => (congrArg Host.Outcome.next (free h)).trans ?_,
          fun h => (congrArg Host.Outcome.next (rigged h)).trans ?_⟩
        · rw [silenced, map]
        · rw [silenced, map]
          rfl
      obtain ⟨pair, disagree, aAlone, bAlone, none_⟩ := formWinch_ways (cells .a) (cells .b) s.settings.disagreeTol old
        (SilenceForms l s w) (silenceForms_reformed l s w cell watch good map)
      exact ⟨fun a b near => forms _ _ _ _ (pair a b near) rfl rfl, fun a b far => forms _ _ _ _ (disagree a b far) rfl rfl,
        fun a b => forms _ _ _ _ (aAlone a b) rfl rfl, fun a b => forms _ _ _ _ (bAlone a b) rfl rfl,
        fun a b => forms _ _ _ _ (none_ a b) rfl rfl⟩
  case cap =>
    intro st t floor cap nonneg ordered
    rw [tensionCapOf_eq st t nonneg ordered]
    simp only [winchCap_getD]
    rfl

end Sys2Proof.Proofs
end

section
namespace Sys2Proof.Proofs
open Sys2Proof.Machine

/-! ## A transition of an encoder pair (R146, R147) -/

theorem quad_set_get_self {α : Type} (q : Quad α) (w : Winch) : q.set w (q.get w) = q := by
  fin_cases w <;> rfl

/-- R146: the four steps of the forward cycle, each a pair of the levels before and after. -/
def forwardCycle : List ((Bool × Bool) × (Bool × Bool)) :=
  [((false, false), (true, false)), ((true, false), (true, true)), ((true, true), (false, true)),
    ((false, true), (false, false))]

theorem turnOf_self (levels : Levels) : turnOf levels levels = .unchanged := if_pos rfl

/-- R146: the steps of the cycle are the forward transitions, and read from after to before the backward ones; a change
of both levels is neither. -/
theorem turnOf_ways (a b c d : Bool) :
    (((a, b), (c, d)) ∈ forwardCycle → turnOf ⟨a, b⟩ ⟨c, d⟩ = .forward) ∧
    (((c, d), (a, b)) ∈ forwardCycle → turnOf ⟨a, b⟩ ⟨c, d⟩ = .backward) ∧
    (c ≠ a → d ≠ b → turnOf ⟨a, b⟩ ⟨c, d⟩ = .illegal) := by
  revert a b c d
  decide

section Turn

variable (d : Drum) (levels : Levels)

theorem turn_unchanged (h : turnOf d.levels levels = .unchanged) : d.turn levels = d := by
  rw [Drum.turn, h]

theorem turn_forward (h : turnOf d.levels levels = .forward) :
    d.turn levels = { d with levels := levels, count := d.count + 1 } := by
  rw [Drum.turn, h]

theorem turn_backward (h : turnOf d.levels levels = .backward) :
    d.turn levels = { d with levels := levels, count := d.count - 1 } := by
  rw [Drum.turn, h]

theorem turn_illegal (h : turnOf d.levels levels = .illegal) :
    d.turn levels = { d with levels := levels, illegal := min (d.illegal + 1) 255 } := by
  rw [Drum.turn, h]

end Turn

section Encoder

variable (w : Winch) (levels : Levels) (s : State)

/-- R146: a transition that is legal, or comes while OFFLINE, or leaves fewer than 4 illegal ones changes its drum alone. -/
theorem encoderTransition_quiet (quiet : turnOf (s.drums.get w).levels levels = .illegal → s.rigged = true →
    ((s.drums.get w).turn levels).illegal < 4) :
    encoderTransition w levels s = { s with drums := s.drums.set w ((s.drums.get w).turn levels) } := by
  refine if_neg fun report => ?_
  simp only [Bool.and_eq_true, decide_eq_true_eq] at report
  obtain ⟨⟨illegal, rigged⟩, many⟩ := report
  exact absurd (quiet illegal rigged) (not_lt.2 many)

/-- R147: while rigged an illegal transition that leaves 4 or more is reported. -/
theorem encoderTransition_reported (illegal : turnOf (s.drums.get w).levels levels = .illegal) (rigged : s.rigged = true)
    (many : 4 ≤ ((s.drums.get w).turn levels).illegal) :
    encoderTransition w levels s = { s with
      drums := s.drums.set w ((s.drums.get w).turn levels)
      hands := { s.hands with faults := s.hands.faults ++ [⟨.encoder, some w⟩] } } := by
  refine if_pos ?_
  simp only [Bool.and_eq_true, decide_eq_true_eq]
  exact ⟨⟨illegal, rigged⟩, many⟩

/-- R146: a legal transition leaves its drum as the turn makes it, and nothing else differs. -/
theorem encoderTransition_legal (d : Drum) (legal : turnOf (s.drums.get w).levels levels ≠ .illegal)
    (turned : (s.drums.get w).turn levels = d) :
    encoderTransition w levels s = { s with drums := s.drums.set w d } := by
  rw [encoderTransition_quiet w levels s fun illegal => absurd illegal legal, turned]

end Encoder

/-- Settles O51: a transition by what it is in the forward cycle, an illegal one by the count it leaves. -/
theorem encoderCountsQuadrature : Obligations.EncoderCountsQuadrature := by
  refine ⟨?transitions, fun s => rfl⟩
  intro w s levels d after forward old new n
  obtain ⟨isForward, isBackward, isIllegal⟩ := turnOf_ways d.levels.a d.levels.b levels.a levels.b
  have legal : ∀ d', turnOf d.levels levels ≠ .illegal → d.turn levels = d' → after d' := fun d' h turned =>
    congrArg Host.Outcome.next (encoderTransition_legal w levels s d' h turned)
  refine ⟨fun mem => ?forward, fun mem => ?backward, fun ha hb => ?illegal, fun same => ?unchanged⟩
  case forward =>
    have turn : turnOf d.levels levels = .forward := isForward mem
    exact legal _ (by simp [turn]) (turn_forward d levels turn)
  case backward =>
    have turn : turnOf d.levels levels = .backward := isBackward mem
    exact legal _ (by simp [turn]) (turn_backward d levels turn)
  case illegal =>
    have turn : turnOf d.levels levels = .illegal := isIllegal ha hb
    have turned := turn_illegal d levels turn
    have count : (d.turn levels).illegal = n := congrArg Drum.illegal turned
    refine ⟨fun few => congrArg Host.Outcome.next ?_, fun rigged many => congrArg Host.Outcome.next ?_⟩
    · have quiet : s.rigged = true → (d.turn levels).illegal < 4 := fun rigged => by
        rw [count]
        exact few.resolve_left (by simp [rigged])
      rw [encoderTransition_quiet w levels s fun _ => quiet, turned]
    · rw [encoderTransition_reported w levels s turn rigged (count.symm ▸ many), turned]
  case unchanged =>
    have turn : turnOf d.levels levels = .unchanged := same ▸ turnOf_self levels
    have run : after d := legal _ (by simp [turn]) (turn_unchanged d levels turn)
    exact run.trans (by rw [quad_set_get_self])

end Sys2Proof.Proofs
end

section
namespace Sys2Proof.Proofs
open Sys2Proof.Machine

/-! ## Measured lengths and tracking (R148, R149) -/

section Tracking

variable (lengths : Quad Int)

/-- R149: the drum of winch `w` once its measured length has been compared. -/
def trackedDrum (s : State) (w : Winch) : Drum :=
  trackDrum s.settings.trackTol (s.settings.drumScale.get w) (lengths.get w) (s.drums.get w)

/-- R149: all four drums once they have been compared. -/
def trackedDrums (s : State) : Quad Drum :=
  ⟨trackedDrum lengths s 0, trackedDrum lengths s 1, trackedDrum lengths s 2, trackedDrum lengths s 3⟩

theorem trackedDrums_get (s : State) (w : Winch) : (trackedDrums lengths s).get w = trackedDrum lengths s w := by
  fin_cases w <;> rfl

/-- R148, R149: the comparison, spelt out on the references of the drum. -/
theorem trackDrum_eq (tolerance scale commanded : Int) (d : Drum) : trackDrum tolerance scale commanded d =
    match d.countRef, d.lengthRef with
    | some n, some l =>
        if 1000 * tolerance < |l + ((d.count - n).toInt * scale).tdiv 65536 - commanded| then
          { d with exceed := min (d.exceed + 1) 3 }
        else { d with exceed := 0 }
    | _, _ => d := by
  unfold trackDrum measuredLength
  cases d.countRef <;> cases d.lengthRef <;> rfl

/-- R149: the TRACKING reports of the winches `ws` whose drums `drums` stand at 3. -/
def trackingReports (drums : Winch → Drum) (ws : List Winch) : List Report :=
  (ws.filter (fun w => decide ((drums w).exceed = 3))).map (fun w => ⟨.tracking, some w⟩)

theorem trackWinch_eq (s : State) (w : Winch) : trackWinch lengths s w = { s with
    drums := s.drums.set w (trackedDrum lengths s w)
    hands := { s.hands with faults := s.hands.faults ++ trackingReports (trackedDrum lengths s) [w] } } := by
  unfold trackWinch
  by_cases third : (trackedDrum lengths s w).exceed = 3
  · rw [trackingReports, List.filter_cons_of_pos (by simpa using third)]
    exact if_pos third
  · rw [trackingReports, List.filter_cons_of_neg (by simpa using third)]
    refine (if_neg third).trans ?_
    simp only [List.filter_nil, List.map_nil, List.append_nil]
    rfl

/-- The comparison of one winch leaves what the comparison of another finds. -/
theorem trackedDrum_trackWinch (s : State) {v w : Winch} (other : v ≠ w) :
    trackedDrum lengths (trackWinch lengths s w) v = trackedDrum lengths s v := by
  rw [trackWinch_eq]
  exact congrArg (trackDrum _ _ _) ((quad_get_set ..).trans (if_neg other))

/-- R149: comparing the winches of a list without repetition, each against the drums that stood before. -/
theorem foldl_trackWinch (drums : Winch → Drum) (ws : List Winch) (distinct : ws.Nodup) (s : State)
    (found : ∀ w ∈ ws, trackedDrum lengths s w = drums w) :
    ws.foldl (trackWinch lengths) s = { s with
      drums := ws.foldl (fun q w => q.set w (drums w)) s.drums
      hands := { s.hands with faults := s.hands.faults ++ trackingReports drums ws } } := by
  induction ws generalizing s with
  | nil => simp [trackingReports]
  | cons w ws ih =>
    obtain ⟨fresh, distinct⟩ := List.nodup_cons.1 distinct
    have rest : ∀ v ∈ ws, trackedDrum lengths (trackWinch lengths s w) v = drums v := fun v mem => by
      rw [trackedDrum_trackWinch lengths s (ne_of_mem_of_not_mem mem fresh)]
      exact found v (List.mem_cons_of_mem w mem)
    have first : trackedDrum lengths s w = drums w := found w List.mem_cons_self
    have joined : trackingReports (trackedDrum lengths s) [w] ++ trackingReports drums ws =
        trackingReports drums (w :: ws) := by
      simp only [trackingReports, ← List.map_append, List.filter_cons, List.filter_nil, first]
      split <;> rfl
    rw [List.foldl_cons, ih distinct _ rest, trackWinch_eq, List.append_assoc, joined, first]
    rfl

end Tracking

section Step

variable {s : State} {r : StepResult} (step : s.hands.stepDrum = some r)
include step

/-- The drum counters take a published step result, and judge it while rigged. -/
theorem takeDrumResult_step : takeDrumResult s =
    let s1 := { s with hands := { s.hands with stepDrum := none } }
    if s.rigged then drumStep s1 else s1 := by
  rw [takeDrumResult, step]
  rfl

theorem takeDrumResult_offline (free : s.rigged = false) :
    takeDrumResult s = { s with hands := { s.hands with stepDrum := none } } :=
  (takeDrumResult_step step).trans (if_neg (by simp [free]))

theorem takeDrumResult_rigged (rigged : s.rigged = true) :
    takeDrumResult s = drumStep { s with hands := { s.hands with stepDrum := none } } :=
  (takeDrumResult_step step).trans (if_pos rigged)

end Step

theorem drumStep_poseLost (s : State) (lost : s.carrier.poseLost = true) :
    drumStep s = { s with drums := s.drums.map (fun d => { d with exceed := 0 }) } := if_pos lost

/-- R149: with the pose held every winch is compared with the path's lengths. -/
theorem drumStep_poseHeld (s : State) (p : Path) (held : s.carrier.poseLost = false) (path : s.path = some p) :
    drumStep s = { s with
      drums := trackedDrums p.lengths s
      hands := { s.hands with faults := s.hands.faults ++ trackingReports (trackedDrums p.lengths s).get winches } } := by
  have folds : drumStep s = winches.foldl (trackWinch p.lengths) s := by
    rw [drumStep, path, if_neg (by simp [held])]
  exact folds.trans (foldl_trackWinch p.lengths (trackedDrums p.lengths s).get winches (by decide) s
    fun w _ => (trackedDrums_get p.lengths s w).symm)

/-! ## The wind at a second tick (R152 to R154) -/

section Wind

variable (s : State)

/-- R152, R153: the wind speed of the gate that closes. -/
def gateSpeed : Int := s.wind.pulses * s.settings.windCmPerPulse

/-- R152, R153: the wind input once the gate has closed, with the hold as given. -/
def gateClosed (hold : Bool) : Wind :=
  { pulses := 0, speed := gateSpeed s, cap := windCapOf s.settings (gateSpeed s), hold := hold }

/-- R154: the hold that the second tick leaves. -/
def holdJudged : Bool := if s.rigged then windHoldOf s.settings (gateSpeed s) s.wind.hold else s.wind.hold

theorem holdJudged_set (rigged : s.rigged = true) (clear : s.wind.hold = false) :
    holdJudged s = decide (s.settings.windStop ≤ gateSpeed s) := by
  rw [holdJudged, if_pos rigged, windHoldOf, clear]
  rfl

theorem holdJudged_cleared (rigged : s.rigged = true) (standing : s.wind.hold = true) :
    holdJudged s = !decide (gateSpeed s ≤ s.settings.windFull) := by
  rw [holdJudged, if_pos rigged, windHoldOf, standing]
  rfl

/-- R154: OFFLINE, a clear hold below WIND_STOP and a set one above WIND_FULL stand. -/
theorem holdJudged_stands (h : s.rigged = false ∨ (s.wind.hold = false ∧ gateSpeed s < s.settings.windStop) ∨
    (s.wind.hold = true ∧ s.settings.windFull < gateSpeed s)) : holdJudged s = s.wind.hold := by
  cases rig : s.rigged with
  | false => rw [holdJudged, rig]; rfl
  | true =>
    obtain free | ⟨clear, low⟩ | ⟨standing, high⟩ := h
    · simp [free] at rig
    · rw [holdJudged_set s rig clear, clear]
      exact decide_eq_false (not_le.2 low)
    · rw [holdJudged_cleared s rig standing, standing, decide_eq_false (not_le.2 high)]
      rfl

theorem windSecondTick_stands (h : holdJudged s = s.wind.hold) :
    windSecondTick s = { s with wind := gateClosed s s.wind.hold } := by
  refine (if_pos h).trans ?_
  change { s with wind := gateClosed s (holdJudged s) } = _
  rw [h]

/-- R154, R155: a change of the hold sends its notice and is handed over. -/
theorem windSecondTick_changes (hold : Bool) (judged : holdJudged s = hold) (change : hold ≠ s.wind.hold) :
    windSecondTick s = State.told { s with
        wind := gateClosed s hold, hands := { s.hands with windChanges := s.hands.windChanges ++ [hold] } }
      [.wind (if hold then .set else .cleared) hold (gateSpeed s) (windCapOf s.settings (gateSpeed s))
        s.settings.windFull s.settings.windStop] := by
  subst judged
  exact if_neg change

end Wind

/-- Settles O52: a step result by the mode and the pose, a pulse, and a second tick by the hold that it leaves. -/
theorem trackingAndWindAreJudged : Obligations.TrackingAndWindAreJudged := by
  refine ⟨?tracking, fun s => rfl, ?wind⟩
  case tracking =>
    intro s r step h
    refine ⟨fun free => congrArg Host.Outcome.next (takeDrumResult_offline step free), fun rigged lost => ?_, ?_⟩
    · exact congrArg Host.Outcome.next ((takeDrumResult_rigged step rigged).trans (drumStep_poseLost _ lost))
    · intro p rigged held path judged drums
      have each : ∀ w, judged w (s.drums.get w) = trackedDrum p.lengths { s with hands := h } w := fun w =>
        (trackDrum_eq s.settings.trackTol (s.settings.drumScale.get w) (p.lengths.get w) (s.drums.get w)).symm
      have all : drums = trackedDrums p.lengths { s with hands := h } :=
        (Quad.mk.injEq ..).mpr ⟨each 0, each 1, each 2, each 3⟩
      rw [all]
      exact congrArg Host.Outcome.next
        ((takeDrumResult_rigged step rigged).trans (drumStep_poseHeld { s with hands := h } p held path))
  case wind =>
    intro s st speed floor cap after news changed
    refine ⟨fun stands => ?_, fun rigged clear high => ?_, fun rigged standing low => ?_⟩
    · exact congrArg Host.Outcome.next (windSecondTick_stands s (holdJudged_stands s stands))
    · have judged : holdJudged s = true := (holdJudged_set s rigged clear).trans (decide_eq_true high)
      exact congrArg Host.Outcome.next (windSecondTick_changes s true judged (by simp [clear]))
    · have judged : holdJudged s = false :=
        (holdJudged_cleared s rigged standing).trans (congrArg Bool.not (decide_eq_true low))
      exact congrArg Host.Outcome.next (windSecondTick_changes s false judged (by simp [standing]))

end Sys2Proof.Proofs
end

section
namespace Sys2Proof.Proofs
open Sys2Proof Sys2Proof.Machine

/-! ## The slots take set-points and STOP (R158, R159) -/

section Slots

variable {s : State}

theorem takeWrite_rigged {w : SlotWrite} {rest : List SlotWrite} (rigged : s.rigged = true)
    (stands : s.hands.writes = w :: rest) :
    takeWrite s = { s with bus := s.bus.write w, hands := { s.hands with writes := rest } } := by
  rw [takeWrite, stands]
  exact if_pos rigged

theorem takeRaise_rigged {r : Raise} {rest : List Raise} (rigged : s.rigged = true)
    (stands : s.hands.raises = r :: rest) :
    takeRaise s = { s with
      bus := s.bus.raiseStop (s.carrier.first.map Report.cause), hands := { s.hands with raises := rest } } := by
  rw [takeRaise, stands]
  exact if_pos rigged

end Slots

/-- Settles O25: what stands is taken by the slots, since the part is rigged. -/
theorem slotsTakeSetpointsAndStop : Obligations.SlotsTakeSetpointsAndStop :=
  ⟨fun _ _ _ rigged stands => congrArg Host.Outcome.next (takeWrite_rigged rigged stands),
    fun _ _ _ rigged stands => congrArg Host.Outcome.next (takeRaise_rigged rigged stands)⟩

end Sys2Proof.Proofs
end

section
namespace Sys2Proof.Proofs
open Sys2Proof Sys2Proof.Machine

/-! ## The search for the slot that is begun (R160) -/

/-- R160: what stands in the slot of `w`, if anything, is withdrawn by an arbiter that looks at it. -/
def passedOver (discard : Bool) (slots : Quad (Option Setpoint)) (w : Winch) : Prop :=
  ∀ c, slots.get w = some c → discard = true ∧ c.brake = false

/-- The winches of a lower number than `w`, in ascending number. -/
def winchesBelow (w : Winch) : List Winch := winches.filter (fun v => v < w)

/-- The slots once those of `ws` are empty. -/
def emptied (ws : List Winch) (slots : Quad (Option Setpoint)) : Quad (Option Setpoint) :=
  ws.foldl (fun q w => q.set w none) slots

theorem mem_winchesBelow {v w : Winch} : v ∈ winchesBelow w ↔ v < w := by
  revert v w
  decide

theorem winches_around (w : Winch) : winches = winchesBelow w ++ w :: winches.filter (fun v => w < v) := by
  revert w
  decide

theorem quad_eq_of_get {α : Type} {q : Quad α} {f : Winch → α} (h : ∀ w, q.get w = f w) : q = ⟨f 0, f 1, f 2, f 3⟩ :=
  quad_ext _ _ fun w => (h w).trans (by fin_cases w <;> rfl)

section Search

variable {discard : Bool} {slots : Quad (Option Setpoint)}

theorem emptied_get (ws : List Winch) (slots : Quad (Option Setpoint)) (v : Winch) :
    (emptied ws slots).get v = if v ∈ ws then none else slots.get v := by
  induction ws generalizing slots with
  | nil => rfl
  | cons w ws ih =>
    refine (ih (slots.set w none)).trans ?_
    rw [quad_get_set]
    by_cases here : v = w <;> simp [here]

theorem emptied_through_get (slots : Quad (Option Setpoint)) (w v : Winch) :
    ((emptied (winchesBelow w) slots).set w none).get v = if v ≤ w then none else slots.get v := by
  simp only [quad_get_set, emptied_get, mem_winchesBelow]
  obtain lt | rfl | gt := lt_trichotomy v w
  · simp [lt, lt.le]
  · simp
  · simp [gt.ne', gt.not_ge, gt.not_gt]

/-- Emptying slots in which nothing stands changes none. -/
theorem emptied_of_none {ws : List Winch} (h : ∀ v ∈ ws, slots.get v = none) : emptied ws slots = slots := by
  refine quad_ext _ _ fun v => ?_
  rw [emptied_get]
  split
  · exact (h v ‹_›).symm
  · rfl

theorem passedOver_of_none {w : Winch} (h : slots.get w = none) : passedOver discard slots w :=
  fun c stands => by simp [h] at stands

theorem pickSlot_passes {w : Winch} (h : passedOver discard slots w) (rest : List Winch) :
    pickSlot discard slots (w :: rest) = pickSlot discard (slots.set w none) rest := by
  rw [pickSlot]
  cases stands : slots.get w with
  | none => simp [← stands, quad_set_get_self]
  | some c =>
    obtain ⟨discards, clear⟩ := h c stands
    exact if_pos (by simp [discards, clear])

theorem pickSlot_skips {ws : List Winch} (h : ∀ w ∈ ws, passedOver discard slots w) (rest : List Winch) :
    pickSlot discard slots (ws ++ rest) = pickSlot discard (emptied ws slots) rest := by
  induction ws generalizing slots with
  | nil => rfl
  | cons w ws ih =>
    obtain ⟨here, later⟩ := List.forall_mem_cons.1 h
    refine (pickSlot_passes here _).trans (ih fun v mem c stands => ?_)
    rw [quad_get_set] at stands
    split at stands
    · simp at stands
    · exact later v mem c stands

theorem pickSlot_begins {w : Winch} {c : Setpoint} (stands : slots.get w = some c)
    (may : c.brake = true ∨ discard = false) (rest : List Winch) :
    pickSlot discard slots (w :: rest) = (slots.set w none, some (.setpoint w c)) := by
  rw [pickSlot, stands]
  exact if_neg (by obtain brake | keeps := may <;> simp [*])

/-- R160: the arbiter begins the lowest slot that it may, and withdraws what it passes over. -/
theorem pickSlot_lowest {w : Winch} {c : Setpoint} (stands : slots.get w = some c)
    (may : c.brake = true ∨ discard = false) (lower : ∀ v < w, passedOver discard slots v) :
    pickSlot discard slots winches =
      ((emptied (winchesBelow w) slots).set w none, some (.setpoint w c)) := by
  have reached : (emptied (winchesBelow w) slots).get w = some c := by
    rw [emptied_get, if_neg (by simp [mem_winchesBelow]), stands]
  rw [winches_around w, pickSlot_skips fun v mem => lower v (mem_winchesBelow.1 mem)]
  exact pickSlot_begins reached may _

/-- R160: with nothing that it may begin the arbiter empties every slot. -/
theorem pickSlot_nothing (h : ∀ w, passedOver discard slots w) :
    pickSlot discard slots winches = (emptied winches slots, none) := by
  have skips := pickSlot_skips (ws := winches) (fun w _ => h w) []
  rwa [List.append_nil] at skips

/-- R160: an arbiter that discards begins set-points with the brake flag set alone. -/
theorem pickSlot_brakes {ws : List Winch} {content : TxContent} (h : (pickSlot true slots ws).2 = some content) :
    ∃ w c, content = .setpoint w c ∧ c.brake = true := by
  induction ws generalizing slots with
  | nil => simp [pickSlot] at h
  | cons w ws ih =>
    by_cases passes : passedOver true slots w
    · rw [pickSlot_passes passes] at h
      exact ih h
    · obtain ⟨c, stands, brake⟩ : ∃ c, slots.get w = some c ∧ c.brake = true := by
        simpa [passedOver] using passes
      rw [pickSlot_begins stands (.inl brake)] at h
      exact ⟨w, c, (Option.some.inj h).symm, brake⟩

end Search

/-! ## Beginning a transmission (R157, R160) -/

theorem discardsSetpoints_iff (m : Mode) :
    m.discardsSetpoints = true ↔ m = .offline ∨ m = .parked ∨ m = .halted .stopped := by
  cases m with
  | halted sub => cases sub <;> decide
  | _ => decide

section Begin

variable {s : State}

theorem transmitBegin_busy (busy : s.bus.flight ≠ none) : transmitBegin s = s := by
  obtain ⟨f, flies⟩ := Option.ne_none_iff_exists'.1 busy
  rw [transmitBegin, flies]

theorem transmitBegin_stop {first : Option Cause} (free : s.bus.flight = none) (stop : s.bus.stopSlot = some first) :
    transmitBegin s = { s with bus := { s.bus with
      stopSlot := none, flight := some (flightOf s.settings (.stop first)) } } := by
  rw [transmitBegin, free, stop]

theorem transmitBegin_picks {slots : Quad (Option Setpoint)} {content : Option TxContent} (free : s.bus.flight = none)
    (stop : s.bus.stopSlot = none)
    (picked : pickSlot s.carrier.mode.discardsSetpoints s.bus.slots winches = (slots, content)) :
    transmitBegin s = { s with bus := { s.bus with slots := slots, flight := content.map (flightOf s.settings) } } := by
  rw [transmitBegin, free, stop]
  simp only [picked]

/-- With nothing to begin, only the slots can change. -/
theorem transmitBegin_nothing {slots : Quad (Option Setpoint)} (free : s.bus.flight = none) (stop : s.bus.stopSlot = none)
    (picked : pickSlot s.carrier.mode.discardsSetpoints s.bus.slots winches = (slots, none)) :
    transmitBegin s = { s with bus := { s.bus with slots := slots } } := by
  rw [transmitBegin_picks free stop picked, Option.map_none, ← free]

/-- R160: while set-points are discarded, a frame that is begun is STOP or has the brake flag set. -/
theorem transmitBegin_brakes {f : Flight} (free : s.bus.flight = none)
    (discards : s.carrier.mode.discardsSetpoints = true) (begun : (transmitBegin s).bus.flight = some f) :
    (∃ first, f.content = .stop first) ∨ ∃ w c, f.content = .setpoint w c ∧ c.brake = true := by
  cases stop : s.bus.stopSlot with
  | some first =>
    rw [transmitBegin_stop free stop] at begun
    exact .inl ⟨first, (congrArg Flight.content (Option.some.inj begun)).symm⟩
  | none =>
    rw [transmitBegin_picks free stop Prod.mk.eta.symm, discards] at begun
    obtain ⟨content, picked, rfl⟩ := Option.map_eq_some_iff.1 begun
    exact .inr (pickSlot_brakes picked)

end Begin

/-- Settles O27: each case of the arbiter is what its search over the slots finds. -/
theorem arbiterBeginsLowestIdentifier : Obligations.ArbiterBeginsLowestIdentifier := by
  refine ⟨fun s first free stop => congrArg Host.Outcome.next (transmitBegin_stop free stop), ?setpoint, ?brakes,
    ?discarding, ?idle⟩
  case setpoint =>
    intro s w c free stop stands lower may
    have empty : emptied (winchesBelow w) s.bus.slots = s.bus.slots :=
      emptied_of_none fun v mem => lower v (mem_winchesBelow.1 mem)
    have may' : c.brake = true ∨ s.carrier.mode.discardsSetpoints = false :=
      may.imp_right fun ⟨rigged, unparked, moves⟩ => by
        simp [Bool.eq_false_iff, discardsSetpoints_iff, rigged, unparked, moves]
    have picked := pickSlot_lowest stands may' fun v lt => passedOver_of_none (lower v lt)
    rw [empty] at picked
    exact congrArg Host.Outcome.next (transmitBegin_picks free stop picked)
  case brakes =>
    intro s t free step mode f flies
    obtain rfl : transmitBegin s = t := Host.Outcome.next.inj step
    exact transmitBegin_brakes free ((discardsSetpoints_iff _).2 mode) flies
  case discarding =>
    intro s free stop mode
    have discards := (discardsSetpoints_iff _).2 mode
    refine ⟨?_, fun clear => ?_⟩
    · intro w c stands brake lower left
      have picked := pickSlot_lowest stands (.inl brake) fun v lt d held => ⟨discards, lower v lt d held⟩
      rw [quad_eq_of_get (f := left) fun v => emptied_through_get s.bus.slots w v] at picked
      refine congrArg Host.Outcome.next ((transmitBegin_picks free stop picked).trans ?_)
      simp [flightOf, TxContent.identifier, TxContent.data, brakeFlags, brake]
    · have picked := pickSlot_nothing fun w d stands => ⟨discards, clear w d stands⟩
      exact congrArg Host.Outcome.next (transmitBegin_nothing free stop picked)
  case idle =>
    intro s h
    obtain busy | ⟨stop, empty⟩ := h
    · exact congrArg Host.Outcome.next (transmitBegin_busy busy)
    · by_cases free : s.bus.flight = none
      · have picked := pickSlot_nothing (discard := s.carrier.mode.discardsSetpoints)
          fun w => passedOver_of_none (empty w)
        rw [emptied_of_none fun w _ => empty w] at picked
        exact congrArg Host.Outcome.next (transmitBegin_nothing free stop picked)
      · exact congrArg Host.Outcome.next (transmitBegin_busy free)

end Sys2Proof.Proofs
end

section
namespace Sys2Proof.Proofs
open Sys2Proof Sys2Proof.Machine

/-! ## The end of a transmission (R161) -/

theorem giveBack_stop (b : Bus) (first : Option Cause) :
    b.giveBack (.stop first) = { b with stopSlot := if b.stopSlot = none then some first else b.stopSlot } := by
  cases stop : b.stopSlot <;> simp [Bus.giveBack, stop]
  rw [← stop]

theorem giveBack_setpoint (b : Bus) (w : Winch) (c : Setpoint) :
    b.giveBack (.setpoint w c) = { b with
      slots := if b.slots.get w = none ∧ b.stopSlot = none then b.slots.set w (some c) else b.slots } := by
  by_cases empty : b.slots.get w = none ∧ b.stopSlot = none <;> simp [Bus.giveBack, empty]

/-- R161: the failure count after a failed transmission, and the report that it brings. -/
theorem countFailure_eq (c : TxContent) (s : State) :
    countFailure c s = { s with
      bus := { s.bus with failures := min (s.bus.failures + 1) 16 }
      hands := { s.hands with
        faults := s.hands.faults
          ++ (if min (s.bus.failures + 1) 16 = 16 ∧ s.bus.failures ≠ 16 ∧ s.rigged = true then [⟨.linkLost, c.winch⟩]
            else []) } } := by
  by_cases reaches : min (s.bus.failures + 1) 16 = 16 ∧ s.bus.failures ≠ 16 ∧ s.rigged = true
  · simp [countFailure, reaches]
  · rw [if_neg reaches, List.append_nil]
    exact if_neg (by simpa [and_assoc] using reaches)

theorem transmissionEnd_acknowledged {s : State} {f : Flight} (flies : s.bus.flight = some f) :
    transmissionEnd .acknowledged s = { s with bus := { s.bus with flight := none, failures := 0 } } := by
  rw [transmissionEnd, flies]

theorem transmissionEnd_lost {s : State} {f : Flight} (flies : s.bus.flight = some f) :
    transmissionEnd .lost s = { s with bus := Bus.giveBack { s.bus with flight := none } f.content } := by
  rw [transmissionEnd, flies]

theorem transmissionEnd_failed {s : State} {f : Flight} (flies : s.bus.flight = some f) :
    transmissionEnd .failed s =
      countFailure f.content { s with bus := Bus.giveBack { s.bus with flight := none } f.content } := by
  rw [transmissionEnd, flies]

/-- Settles O28: a frame that is not acknowledged is given back, and only a failure counts. -/
theorem transmissionEndsThreeWays : Obligations.TransmissionEndsThreeWays := by
  intro s f flies back n
  have given : Bus.giveBack { s.bus with flight := none } f.content = back := by
    obtain ⟨content, id, rate, data⟩ := f
    cases content with
    | stop first => exact giveBack_stop _ first
    | setpoint w c => exact giveBack_setpoint _ w c
  have failures : back.failures = s.bus.failures := by
    obtain ⟨-, kept, -⟩ := giveBack_frame { s.bus with flight := none } f.content
    rw [← given, kept]
  refine ⟨congrArg Host.Outcome.next (transmissionEnd_acknowledged flies),
    congrArg Host.Outcome.next ((transmissionEnd_lost flies).trans (by rw [given])),
    congrArg Host.Outcome.next ((transmissionEnd_failed flies).trans ?_)⟩
  rw [given, countFailure_eq, failures]
  rfl

end Sys2Proof.Proofs
end

section
namespace Sys2Proof.Proofs
open Sys2Proof Sys2Proof.Machine

/-! ## Status timeouts (R162) -/

/-- R162: a drive record whose timeout, if one was due, has been reported. -/
def timeoutReported (d : Drive) : Drive := { d with timeoutDue := false }

/-- R162: the timeouts that are due at the winches `ws`, as they are reported. -/
def timeoutReports (ws : List Winch) (drives : Quad Drive) : List Report :=
  (ws.filter (fun w => (drives.get w).timeoutDue)).map (fun w => ⟨.linkLost, some w⟩)

/-- R162: the records once the timeouts at the winches `ws` have been reported. -/
def timeoutsReported (ws : List Winch) (drives : Quad Drive) : Quad Drive :=
  ws.foldl (fun q w => q.set w (timeoutReported (q.get w))) drives

theorem statusTimeout_due {s : State} {w : Winch} (due : (s.bus.drives.get w).timeoutDue = true) :
    statusTimeout w s = { s with
      bus := { s.bus with drives := s.bus.drives.set w (timeoutReported (s.bus.drives.get w)) }
      hands := { s.hands with faults := s.hands.faults ++ [⟨.linkLost, some w⟩] } } :=
  if_pos due

theorem statusTimeout_eq (w : Winch) (s : State) :
    statusTimeout w s = { s with
      bus := { s.bus with drives := s.bus.drives.set w (timeoutReported (s.bus.drives.get w)) }
      hands := { s.hands with faults := s.hands.faults ++ timeoutReports [w] s.bus.drives } } := by
  cases due : (s.bus.drives.get w).timeoutDue with
  | true => simp [statusTimeout_due due, timeoutReports, due]
  | false =>
    have kept : timeoutReported (s.bus.drives.get w) = s.bus.drives.get w := by rw [timeoutReported, ← due]
    rw [kept, quad_set_get_self]
    simp [statusTimeout, timeoutReports, due]

/-- A report at one winch leaves those due at the others. -/
theorem timeoutReports_set {w : Winch} {ws : List Winch} (other : w ∉ ws) (d : Drive) (drives : Quad Drive) :
    timeoutReports ws (drives.set w d) = timeoutReports ws drives := by
  refine congrArg (List.map _) (List.filter_congr fun v mem => ?_)
  rw [quad_get_set, if_neg (fun same : v = w => other (same ▸ mem))]

theorem timeoutReports_cons (w : Winch) (ws : List Winch) (drives : Quad Drive) :
    timeoutReports (w :: ws) drives = timeoutReports [w] drives ++ timeoutReports ws drives := by
  rw [timeoutReports, ← List.singleton_append, List.filter_append, List.map_append]
  rfl

/-- R162: every timeout that is due at the winches `ws` is reported, in the order of the list. -/
theorem foldl_statusTimeout {ws : List Winch} (distinct : ws.Nodup) (s : State) :
    ws.foldl (fun t w => statusTimeout w t) s = { s with
      bus := { s.bus with drives := timeoutsReported ws s.bus.drives }
      hands := { s.hands with faults := s.hands.faults ++ timeoutReports ws s.bus.drives } } := by
  induction ws generalizing s with
  | nil => simp [timeoutReports, timeoutsReported]
  | cons w ws ih =>
    obtain ⟨other, rest⟩ := List.nodup_cons.1 distinct
    rw [List.foldl_cons, ih rest, statusTimeout_eq]
    simp only [timeoutReports_set other, List.append_assoc, ← timeoutReports_cons]
    rfl

theorem timeoutsReported_winches (drives : Quad Drive) :
    timeoutsReported winches drives = drives.map timeoutReported := rfl

/-! ## Keepalives (R163) -/

section Keepalives

variable {s : State} {b : Bus}

/-- R163: the keepalive content of the four slots. -/
def keepaliveSlots (p : Path) : Quad (Option Setpoint) :=
  ⟨some ⟨p.lengths.w0, p.count, true⟩, some ⟨p.lengths.w1, p.count, true⟩, some ⟨p.lengths.w2, p.count, true⟩,
    some ⟨p.lengths.w3, p.count, true⟩⟩

theorem keepalive_due {p : Path} (due : s.bus.keepaliveDue = true) (path : s.path = some p) :
    keepalive s = { s with
      bus := { s.bus with keepaliveDue := false, countdown := 25, slots := keepaliveSlots p } } := by
  rw [keepalive, if_pos due, path]
  rfl

theorem keepalive_notDue (h : s.bus.keepaliveDue = false) : keepalive s = s := by
  rw [keepalive, h]
  rfl

/-- R163: the countdown stands at 0 or 1 or starts again: the keepalives are due. -/
theorem countKeepalive_due {entering : Bool} (due : entering = true ∨ b.countdown ≤ 1) :
    b.countKeepalive entering = { b with countdown := if entering then 0 else b.countdown, keepaliveDue := true } := by
  refine if_pos ?_
  obtain enters | low := due
  · simp [enters]
  · split
    · exact Nat.zero_le _
    · exact low

theorem countKeepalive_waits (high : 1 < b.countdown) :
    b.countKeepalive false = { b with countdown := b.countdown - 1 } :=
  if_neg (Nat.not_le.2 high)

/-- R163: at an expiry that reads PARKED or HALTED/STOPPED the keepalives are written, or the countdown falls by 1. -/
theorem keepalive_counted {p : Path} (mode : Mode) (path : s.path = some p) (written : s.bus.keepaliveDue = false) :
    keepalive { s with bus := (s.bus.countKeepalive (s.bus.lastClass == .short)).expire mode } = { s with
      bus := { s.bus.expire mode with
        countdown := if s.bus.lastClass = .short ∨ s.bus.countdown ≤ 1 then 25 else s.bus.countdown - 1
        slots := if s.bus.lastClass = .short ∨ s.bus.countdown ≤ 1 then keepaliveSlots p else s.bus.slots } } := by
  by_cases due : s.bus.lastClass = .short ∨ s.bus.countdown ≤ 1
  · rw [countKeepalive_due (by simpa using due), keepalive_due (by rfl) (by exact path), if_pos due, if_pos due]
    simp only [Bus.expire, written]
  · obtain ⟨long, high⟩ := not_or.1 due
    have entered : (s.bus.lastClass == .short) = false := by simpa using long
    rw [entered, countKeepalive_waits (Nat.not_le.1 high), keepalive_notDue (by exact written), if_neg due, if_neg due]
    rfl

end Keepalives

/-! ## The period expiry (R162) -/

/-- R162: the watch age after an expiry while rigged. -/
def watchAfter (rearm : Bool) (d : Drive) : Nat := min ((if rearm then 0 else d.watchAge) + 1) 255

/-- R162: a drive record after an expiry while rigged, its timeout reported. -/
def agedDrive (rearm : Bool) (d : Drive) : Drive :=
  { d with
    statusAge := d.statusAge.map (fun a => min (a + 1) 255), watchAge := watchAfter rearm d, timeoutDue := false }

/-- R162: the reports of the winches whose watch age reaches the limit. -/
def watchReports (limit : Nat) (rearm : Bool) (drives : Quad Drive) : List Report :=
  (winches.filter (fun w => decide (watchAfter rearm (drives.get w) = limit))).map (fun w => ⟨.linkLost, some w⟩)

section Expiry

variable {s : State}

/-- R162: once the records have aged, each winch whose watch age has reached the limit is reported. -/
theorem foldl_statusTimeout_aged {limit : Nat} {rearm : Bool} {drives : Quad Drive}
    (aged : s.bus.drives = drives.map (Drive.ageRigged limit rearm)) :
    winches.foldl (fun t w => statusTimeout w t) s = { s with
      bus := { s.bus with drives := drives.map (agedDrive rearm) }
      hands := { s.hands with faults := s.hands.faults ++ watchReports limit rearm drives } } := by
  have reports : timeoutReports winches (drives.map (Drive.ageRigged limit rearm)) = watchReports limit rearm drives := by
    simp only [timeoutReports, quad_get_map]
    rfl
  rw [foldl_statusTimeout (by decide), aged, reports, timeoutsReported_winches]
  rfl

theorem ageAndKeep_offline (offline : s.rigged = false) :
    ageAndKeep s = { s with bus := { s.bus with drives := s.bus.drives.map Drive.ageStatus } } := by
  rw [ageAndKeep, offline]
  rfl

/-- R162: an expiry in a mode of the class SHORT. -/
theorem ageAndKeep_short (rigged : s.rigged = true) (flies : s.carrier.mode.keepsBrakes = false)
    (written : s.bus.keepaliveDue = false) :
    ageAndKeep s = { s with
      bus := { s.bus with lastClass := .short, drives := s.bus.drives.map (agedDrive (s.bus.lastClass == .long)) }
      hands := { s.hands with faults := s.hands.faults ++ watchReports 10 (s.bus.lastClass == .long) s.bus.drives } } := by
  have short : s.carrier.mode.timeoutClass = .short := by simp [Mode.timeoutClass, flies]
  have expired : s.bus.expire s.carrier.mode = { s.bus with
      lastClass := .short, drives := s.bus.drives.map (Drive.ageRigged 10 (s.bus.lastClass == .long)) } := by
    simp [Bus.expire, short, TimeoutClass.limit]
  simp only [ageAndKeep, rigged, flies, if_true, Bool.false_eq_true, if_false, expired]
  rw [keepalive_notDue (by exact written), foldl_statusTimeout_aged rfl]

/-- R162, R163: an expiry in PARKED or HALTED/STOPPED. -/
theorem ageAndKeep_long {p : Path} (rigged : s.rigged = true) (keeps : s.carrier.mode.keepsBrakes = true)
    (path : s.path = some p) (written : s.bus.keepaliveDue = false) :
    ageAndKeep s = { s with
      bus := { s.bus with
        lastClass := .long
        countdown := if s.bus.lastClass = .short ∨ s.bus.countdown ≤ 1 then 25 else s.bus.countdown - 1
        slots := if s.bus.lastClass = .short ∨ s.bus.countdown ≤ 1 then keepaliveSlots p else s.bus.slots
        drives := s.bus.drives.map (agedDrive false) }
      hands := { s.hands with faults := s.hands.faults ++ watchReports 60 false s.bus.drives } } := by
  have long : s.carrier.mode.timeoutClass = .long := by simp [Mode.timeoutClass, keeps]
  have expired : s.bus.expire s.carrier.mode = { s.bus with
      lastClass := .long, drives := s.bus.drives.map (Drive.ageRigged 60 false) } := by
    have rearms : (TimeoutClass.long == TimeoutClass.short) = false := rfl
    simp [Bus.expire, long, TimeoutClass.limit, rearms]
  simp only [ageAndKeep, rigged, keeps, if_true]
  rw [keepalive_counted _ path written, expired, foldl_statusTimeout_aged rfl]

theorem drivePeriodExpiry_settled (h : s.carrier.mode = .halted .stopped → .entry ∉ s.hands.raises) :
    drivePeriodExpiry s = ageAndKeep s := by
  rw [drivePeriodExpiry, expiryReady_none s h]

theorem keepsBrakes_iff (m : Mode) : m.keepsBrakes = true ↔ m = .parked ∨ m = .halted .stopped := by
  cases m with
  | halted sub => cases sub <;> decide
  | _ => decide

/-- R162: a watch age that is not reset reaches 60 from 59 alone. -/
theorem watchReports_long (drives : Quad Drive) : watchReports 60 false drives =
    (winches.filter (fun w => decide ((drives.get w).watchAge = 59))).map (fun w => ⟨.linkLost, some w⟩) := by
  refine congrArg (List.map _) (List.filter_congr fun w _ => decide_eq_decide.2 ?_)
  simp only [watchAfter, Bool.false_eq_true, if_false]
  omega

end Expiry

/-- Settles O26: the expiry by the class of the mode, behind the raise of the entry, and the two rows by themselves. -/
theorem periodExpiryAgesAndKeepsBrakes : Obligations.PeriodExpiryAgesAndKeepsBrakes := by
  refine ⟨?short, fun s offline => ?offline, ?long, ?entry,
    fun s w due => congrArg Host.Outcome.next (statusTimeout_due due),
    fun s p due path => congrArg Host.Outcome.next (keepalive_due due path)⟩
  case short =>
    intro s rigged unparked moves written watch
    have flies : s.carrier.mode.keepsBrakes = false := by simp [Bool.eq_false_iff, keepsBrakes_iff, unparked, moves]
    have watched : watch = watchAfter (s.bus.lastClass == .long) := by
      funext d
      simp only [watch, watchAfter, beq_iff_eq]
    rw [watched]
    exact congrArg Host.Outcome.next
      ((drivePeriodExpiry_settled fun stopped => absurd stopped moves).trans (ageAndKeep_short rigged flies written))
  case offline =>
    have mode : s.carrier.mode = .offline := by simpa [State.rigged] using offline
    exact congrArg Host.Outcome.next
      ((drivePeriodExpiry_settled fun stopped => by simp [mode] at stopped).trans (ageAndKeep_offline offline))
  case long =>
    intro s p mode path written due
    have keeps : s.carrier.mode.keepsBrakes = true := (keepsBrakes_iff _).2 (mode.imp_right And.left)
    have rigged : s.rigged = true := rigged_of_mode (by obtain parked | ⟨stopped, -⟩ := mode <;> simp [*])
    have settled : s.carrier.mode = .halted .stopped → .entry ∉ s.hands.raises := fun stopped =>
      mode.elim (fun parked => by simp [parked] at stopped) And.right
    rw [← watchReports_long]
    exact congrArg Host.Outcome.next
      ((drivePeriodExpiry_settled settled).trans (ageAndKeep_long rigged keeps path written))
  case entry =>
    intro s u mode stands taken
    obtain rfl : takeRaise s = u := Host.Outcome.next.inj taken
    exact congrArg (fun t => Host.Outcome.next (ageAndKeep t)) (expiryReady_some s mode stands)

end Sys2Proof.Proofs
end

section
namespace Sys2Proof.Proofs
open Sys2Proof Sys2Proof.Machine

/-! ## Drive status (R164) -/

section Status

theorem winchOfId_eq (id : BitVec 11) : winchOfId id = Fin.ofNat 4 id.toNat := by
  apply Fin.ext
  simp [winchOfId]

/-- Table 11-8: no drive state has a code above 3. -/
theorem driveStateOf_none {code : Byte} (h : 3 < code.toNat) : driveStateOf code = none := by
  unfold driveStateOf
  split
  case h_5 => rfl
  all_goals omega

theorem acceptStatus_accepts {st : Settings} {id : BitVec 11} {code : Byte} {state : DriveState}
    (passes : (id ^^^ st.acceptCode) &&& st.acceptMask = 0) (known : driveStateOf code = some state) (fault echo : Byte)
    (more : List Byte) :
    acceptStatus st (.standard id (code :: fault :: echo :: more)) = some (Fin.ofNat 4 id.toNat, state, fault, echo) := by
  simp only [acceptStatus, passes, known, winchOfId_eq, if_true, Option.map_some]

/-- R164: a standard frame that is too short, fails the acceptance test or has an unknown state code is no STATUS. -/
theorem acceptStatus_ignores {st : Settings} {id : BitVec 11} {data : List Byte}
    (h : data.length < 3 ∨ (id ^^^ st.acceptCode) &&& st.acceptMask ≠ 0 ∨ 3 < (data.getD 0 0).toNat) :
    acceptStatus st (.standard id data) = none := by
  match data, h with
  | [], _ | [_], _ | [_, _], _ => rfl
  | _ :: _ :: _ :: more, .inl short => exact absurd short (by simp)
  | _ :: _ :: _ :: _, .inr (.inl fails) => exact if_neg fails
  | code :: _ :: _ :: _, .inr (.inr unknown) =>
    have none : driveStateOf code = none := driveStateOf_none unknown
    simp [acceptStatus, none]

variable {s : State} {f : CanFrame}

theorem statusReceived_ignored (h : acceptStatus s.settings f = none) : statusReceived f s = s := by
  rw [statusReceived, h]

theorem statusReceived_accepted {w : Winch} {state : DriveState} {fault echo : Byte}
    (h : acceptStatus s.settings f = some (w, state, fault, echo)) :
    statusReceived f s = { s with
      bus := { s.bus with drives := s.bus.drives.set w ⟨some 0, 0, some state, fault, echo, false⟩ }
      hands := { s.hands with faults := s.hands.faults ++
        (if state = .fault ∧ s.rigged = true then [⟨.driveFault, some w⟩] else []) } } := by
  rw [statusReceived, h]
  by_cases faulty : state = .fault ∧ s.rigged = true
  · rw [if_pos faulty]
    exact if_pos (by simpa using faulty)
  · rw [if_neg faulty, List.append_nil]
    exact if_neg (by simpa using faulty)

end Status

/-- Settles O29: a frame is stored or ignored as the acceptance test answers. -/
theorem statusIsAcceptedOrIgnored : Obligations.StatusIsAcceptedOrIgnored :=
  ⟨fun _ _ _ _ fault echo more passes known =>
      congrArg Host.Outcome.next (statusReceived_accepted (acceptStatus_accepts passes known fault echo more)),
    fun _ _ _ => rfl,
    fun _ _ _ h => congrArg Host.Outcome.next (statusReceived_ignored (acceptStatus_ignores h))⟩

end Sys2Proof.Proofs
end

section
namespace Sys2Proof.Proofs
open Sys2Proof.Machine

/-! ## Fields are read back from where they are put (R179) -/

/-- A word of two bytes, the high one first. -/
theorem append_bytes16 (w : BitVec 16) : w.extractLsb' 8 8 ++ w.extractLsb' 0 8 = w :=
  (BitVec.extractLsb'_append_extractLsb'_eq_extractLsb' rfl).trans BitVec.extractLsb'_eq_self

/-- A word of four bytes, the highest first. -/
theorem append_bytes32 (w : BitVec 32) :
    w.extractLsb' 24 8 ++ w.extractLsb' 16 8 ++ w.extractLsb' 8 8 ++ w.extractLsb' 0 8 = w := by
  have high : w.extractLsb' 24 8 ++ w.extractLsb' 16 8 = w.extractLsb' 16 16 :=
    BitVec.extractLsb'_append_extractLsb'_eq_extractLsb' rfl
  have upper : w.extractLsb' 16 16 ++ w.extractLsb' 8 8 = w.extractLsb' 8 24 :=
    BitVec.extractLsb'_append_extractLsb'_eq_extractLsb' rfl
  rw [high, upper]
  exact (BitVec.extractLsb'_append_extractLsb'_eq_extractLsb' rfl).trans BitVec.extractLsb'_eq_self

section Fields

variable {l rest : List Byte} {k : Nat}

/-- A body read from an offset is what stands behind the offset. -/
theorem byteAt_drop (l : List Byte) (k i : Nat) : byteAt (l.drop k) i = byteAt l (k + i) := by
  simp only [byteAt, List.getD_eq_getElem?_getD, List.getElem?_drop]

theorem u8At_field {n : Nat} (at_ : l.drop k = putU8 n ++ rest) (fits : fitsU8 n = true) : u8At l k = n := by
  have moved : u8At l k = u8At (l.drop k) 0 := by simp only [u8At, byteAt_drop, Nat.add_zero]
  rw [moved, at_]
  exact Nat.mod_eq_of_lt (of_decide_eq_true fits)

theorem u16At_field {n : Nat} (at_ : l.drop k = putU16 n ++ rest) (fits : fitsU16 n = true) : u16At l k = n := by
  have moved : u16At l k = u16At (l.drop k) 0 := by simp only [u16At, u8At, byteAt_drop, Nat.add_zero, Nat.zero_add]
  have small : n < 65536 := of_decide_eq_true fits
  rw [moved, at_]
  show n % 256 + 256 * (n / 256 % 256) = n
  omega

theorem i16At_field {n : Int} (at_ : l.drop k = putI16 n ++ rest) (fits : fitsI16 n = true) : i16At l k = n := by
  have moved : i16At l k = i16At (l.drop k) 0 := by simp only [i16At, byteAt_drop, Nat.add_zero, Nat.zero_add]
  simp only [fitsI16, Bool.and_eq_true, decide_eq_true_eq] at fits
  rw [moved, at_]
  exact (congrArg BitVec.toInt (append_bytes16 (BitVec.ofInt 16 n))).trans
    (BitVec.toInt_ofInt_eq_self (by decide) fits.1 (Int.lt_add_one_of_le fits.2))

theorem i32At_field {n : Int} (at_ : l.drop k = putI32 n ++ rest) (fits : fitsI32 n = true) : i32At l k = n := by
  have moved : i32At l k = i32At (l.drop k) 0 := by simp only [i32At, byteAt_drop, Nat.add_zero, Nat.zero_add]
  simp only [fitsI32, Bool.and_eq_true, decide_eq_true_eq] at fits
  rw [moved, at_]
  exact (congrArg BitVec.toInt (append_bytes32 (BitVec.ofInt 32 n))).trans
    (BitVec.toInt_ofInt_eq_self (by decide) fits.1 (Int.lt_add_one_of_le fits.2))

theorem positionAt_field {v : Vec3} (at_ : l.drop k = putPosition v ++ rest) (fits : fitsPosition v = true) :
    positionAt l k = v := by
  have behind (i : Nat) : l.drop (k + i) = (putPosition v ++ rest).drop i := by rw [← at_, List.drop_drop]
  simp only [fitsPosition, Bool.and_eq_true] at fits
  obtain ⟨⟨x, y⟩, z⟩ := fits
  rw [positionAt, i32At_field at_ x, i32At_field (behind 4) y, i32At_field (behind 8) z]

end Fields

/-! ## Every request is read back from its frame (Tables 11-1 and 11-9) -/

/-- The command, if it is a request, is read back from its frame, and the frame's body is not too long. -/
def ReadBack (c : Instr) : Prop :=
  ∀ p f, encodeRequest c = some (p, f) → decodeRequest p f = .request c ∧ f.body.length ≤ 240

theorem readBack_of_none {c : Instr} (h : encodeRequest c = none) : ReadBack c := fun _ _ h' => by simp [h] at h'

theorem readBack_of_some {c : Instr} {p : Port} {f : RawFrame} (h : encodeRequest c = some (p, f))
    (small : f.body.length ≤ 240) (read : decodeRequest p f = .request c) : ReadBack c := by
  intro p' f' h'
  obtain ⟨rfl, rfl⟩ : p = p' ∧ f = f' := by simpa [h] using h'
  exact ⟨read, small⟩

/-- A request whose body length is fixed: what stands at each field's place is the field. -/
theorem readBack_of_fixed {c read : Instr} {p : Port} {f : RawFrame} {n : Nat} (h : encodeRequest c = some (p, f))
    (decodes : decodeRequest p f = fixedLength f.body n read) (length : f.body.length = n) (small : n ≤ 240)
    (same : read = c) : ReadBack c :=
  readBack_of_some h (length ▸ small) (by rw [decodes, fixedLength, if_pos length, same])

section Requests

variable (p : Port) (t : Byte)

theorem readBack_set (id index : Nat) (v : Vec3) (wf : Instr.wellFormed (.set p t id index v) = true) :
    ReadBack (.set p t id index v) := by
  simp only [Instr.wellFormed, Bool.and_eq_true] at wf
  obtain ⟨⟨idFits, indexFits⟩, valueFits⟩ := wf
  refine readBack_of_fixed rfl rfl rfl (by decide) ?_
  rw [Instr.set.injEq]
  exact ⟨rfl, rfl, u8At_field rfl idFits, u8At_field rfl indexFits, positionAt_field rfl valueFits⟩

theorem readBack_zoneAdd (b : ZoneAddBody) (wf : Instr.wellFormed (.zoneAdd p t b) = true) :
    ReadBack (.zoneAdd p t b) := by
  simp only [Instr.wellFormed, Bool.and_eq_true] at wf
  obtain ⟨⟨⟨⟨kind, least⟩, greatest⟩, margin⟩, lifetime⟩ := wf
  refine readBack_of_fixed rfl rfl rfl (by decide) (congrArg (Instr.zoneAdd p t) ?_)
  cases b
  rw [ZoneAddBody.mk.injEq]
  exact ⟨u8At_field rfl kind, positionAt_field rfl least, positionAt_field rfl greatest, u16At_field rfl margin,
    u16At_field rfl lifetime⟩

theorem readBack_zoneEdit (b : ZoneEditBody) (wf : Instr.wellFormed (.zoneEdit p t b) = true) :
    ReadBack (.zoneEdit p t b) := by
  simp only [Instr.wellFormed, Bool.and_eq_true] at wf
  obtain ⟨⟨⟨⟨⟨zone, least⟩, greatest⟩, margin⟩, instruction⟩, lifetime⟩ := wf
  refine readBack_of_fixed rfl rfl rfl (by decide) (congrArg (Instr.zoneEdit p t) ?_)
  cases b
  rw [ZoneEditBody.mk.injEq]
  exact ⟨u8At_field rfl zone, positionAt_field rfl least, positionAt_field rfl greatest, u16At_field rfl margin,
    u8At_field rfl instruction, u16At_field rfl lifetime⟩

theorem readBack_moveAdd (b : MoveAddBody) (wf : Instr.wellFormed (.moveAdd p t b) = true) :
    ReadBack (.moveAdd p t b) := by
  simp only [Instr.wellFormed, Bool.and_eq_true] at wf
  obtain ⟨⟨⟨⟨⟨⟨kind, mark⟩, point⟩, speedCap⟩, tolerance⟩, dwell⟩, release⟩ := wf
  refine readBack_of_fixed rfl rfl rfl (by decide) (congrArg (Instr.moveAdd p t) ?_)
  cases b
  rw [MoveAddBody.mk.injEq]
  exact ⟨u8At_field rfl kind, u8At_field rfl mark, positionAt_field rfl point, u16At_field rfl speedCap,
    u16At_field rfl tolerance, u16At_field rfl dwell, u8At_field rfl release⟩

theorem readBack_steer (v : Vec3) (wf : Instr.wellFormed (.steer p t v) = true) : ReadBack (.steer p t v) := by
  simp only [Instr.wellFormed, fitsVelocity, Bool.and_eq_true] at wf
  obtain ⟨⟨x, y⟩, z⟩ := wf
  refine readBack_of_fixed rfl rfl rfl (by decide) (congrArg (Instr.steer p t) ?_)
  cases v
  rw [Vec3.mk.injEq]
  exact ⟨i16At_field rfl x, i16At_field rfl y, i16At_field rfl z⟩

/-- A body of two single bytes. -/
theorem u8At_pair {a b : Nat} (fits : (fitsU8 a && fitsU8 b) = true) :
    u8At (putU8 a ++ putU8 b) 0 = a ∧ u8At (putU8 a ++ putU8 b) 1 = b := by
  obtain ⟨first, second⟩ := Bool.and_eq_true_iff.1 fits
  exact ⟨u8At_field rfl first, u8At_field rfl second⟩

/-- MARK_SET with a count that agrees with the length (R169 step 3). -/
theorem decodeMarkSet_of_count {b : List Byte} {n : Nat} (count : u8At b 15 = n) (length : b.length = n + 16) :
    decodeMarkSet p t b = .request (.markSet p t ⟨u8At b 0, positionAt b 1, u16At b 13, b.drop 16⟩) := by
  rw [decodeMarkSet, if_neg (by omega), if_pos (by omega)]

theorem readBack_markSet (b : MarkSetBody) (wf : Instr.wellFormed (.markSet p t b) = true) :
    ReadBack (.markSet p t b) := by
  simp only [Instr.wellFormed, Bool.and_eq_true, decide_eq_true_eq, Config.maxBody] at wf
  obtain ⟨⟨⟨mark, point⟩, speedCap⟩, label⟩ := wf
  have count : fitsU8 b.label.length = true := decide_eq_true (by omega)
  refine readBack_of_some rfl (show b.label.length + 16 ≤ 240 by omega) ?_
  refine (decodeMarkSet_of_count p t (u8At_field rfl count) rfl).trans
    (congrArg (fun read => Parsed.request (.markSet p t read)) ?_)
  cases b
  rw [MarkSetBody.mk.injEq]
  exact ⟨u8At_field rfl mark, positionAt_field rfl point, u16At_field rfl speedCap, rfl⟩

/-- MARK_HERE with a count that agrees with the length (R169 step 3). -/
theorem decodeMarkHere_of_count {b : List Byte} {n : Nat} (count : u8At b 3 = n) (length : b.length = n + 4) :
    decodeMarkHere p t b = .request (.markHere p t ⟨u8At b 0, u16At b 1, b.drop 4⟩) := by
  rw [decodeMarkHere, if_neg (by omega), if_pos (by omega)]

theorem readBack_markHere (b : MarkHereBody) (wf : Instr.wellFormed (.markHere p t b) = true) :
    ReadBack (.markHere p t b) := by
  simp only [Instr.wellFormed, Bool.and_eq_true, decide_eq_true_eq, Config.maxBody] at wf
  obtain ⟨⟨mark, speedCap⟩, label⟩ := wf
  have count : fitsU8 b.label.length = true := decide_eq_true (by omega)
  refine readBack_of_some rfl (show b.label.length + 4 ≤ 240 by omega) ?_
  refine (decodeMarkHere_of_count p t (u8At_field rfl count) rfl).trans
    (congrArg (fun read => Parsed.request (.markHere p t read)) ?_)
  cases b
  rw [MarkHereBody.mk.injEq]
  exact ⟨u8At_field rfl mark, u16At_field rfl speedCap, rfl⟩

end Requests

/-- A well-formed request is read back, by the fields of its body; a command that is no request has no frame. -/
theorem readBack_of_wellFormed (c : Instr) (wf : c.wellFormed = true) : ReadBack c := by
  cases c with
  | set p t id index v => exact readBack_set p t id index v wf
  | zoneAdd p t b => exact readBack_zoneAdd p t b wf
  | zoneEdit p t b => exact readBack_zoneEdit p t b wf
  | markSet p t b => exact readBack_markSet p t b wf
  | markHere p t b => exact readBack_markHere p t b wf
  | moveAdd p t b => exact readBack_moveAdd p t b wf
  | steer p t v => exact readBack_steer p t v wf
  | get p t a b | zoneList p t a b =>
    obtain ⟨first, second⟩ := u8At_pair wf
    exact readBack_of_fixed rfl rfl rfl (by decide) (congrArg₂ _ first second)
  | rigCommit p t pose =>
    exact readBack_of_fixed rfl rfl rfl (by decide) (congrArg _ (positionAt_field rfl wf))
  | moveCancel p t id => exact readBack_of_fixed rfl rfl rfl (by decide) (congrArg _ (u16At_field rfl wf))
  | laneCheck p t n | zoneRetire p t n | zoneLock p t n | zoneUnlock p t n | zoneFix p t n | zoneRead p t n
  | markRetire p t n | markRead p t n | markList p t n =>
    exact readBack_of_fixed rfl rfl rfl (by decide) (congrArg _ (u8At_field rfl wf))
  | unrig p t | queueClear p t | queueList p t | run p t | stop p t | takeStick p t | releaseStick p t | park p t
  | unpark p t | halt p t | clearHalt p t | abort p t => exact readBack_of_fixed rfl rfl rfl (by decide) rfl
  | _ => exact readBack_of_none rfl

/-- Settles O21: by `readBack_of_wellFormed`. -/
theorem requestsDecodeFromTheirFrames : Obligations.RequestsDecodeFromTheirFrames :=
  fun c p f wf enc => readBack_of_wellFormed c wf p f enc

end Sys2Proof.Proofs
end

section
namespace Sys2Proof.Proofs
open Sys2Proof.Machine

/-! ## The receiver, character by character (R168) -/

section Receiver

variable (r : PortRec) (b : Byte)

/-- A character that completes no frame moves the receiver alone. -/
theorem character_moves (h : r.receiver.completes b = none) :
    r.character b true = { r with receiver := r.receiver.next b } := by
  simp only [PortRec.character, h, if_true]

/-- A second CRC byte that matches hands the frame to the request stage. -/
theorem character_completes (f : RawFrame) (low : Byte) (at_ : r.receiver = .crcHigh f low)
    (h : crc f.covered = b ++ low) :
    r.character b true = { r with receiver := .hunting, completed := r.completed ++ [f] } := by
  simp only [PortRec.character, at_, Receiver.completes, Receiver.next, if_pos h, if_true]

theorem exec_receiveCharacter (p : Port) (s : State) :
    exec (.receiveCharacter p b true) s = .next (s.setPort p ((s.port p).character b true)) := rfl

theorem exec_receiveCharacter_moves (p : Port) (s : State) (h : (s.port p).receiver.completes b = none) :
    exec (.receiveCharacter p b true) s =
      .next (s.setPort p { s.port p with receiver := (s.port p).receiver.next b }) := by
  rw [exec_receiveCharacter, character_moves _ _ h]

end Receiver

theorem bodyOrCrc_zero (k t : Byte) (got : List Byte) : bodyOrCrc k t 0 got = .crcLow ⟨k, t, got⟩ := if_pos rfl

theorem bodyOrCrc_succ (k t : Byte) (n : Nat) (got : List Byte) :
    bodyOrCrc k t (n + 1) got = .body k t (n + 1) got := if_neg n.succ_ne_zero

/-- Settles O58: each receive state by its own move; the last byte of a frame by whether the CRC matches. -/
theorem receiverTakesCharacters : Obligations.ReceiverTakesCharacters := by
  refine ⟨fun p => by cases p <;> rfl, fun p b s => ?_⟩
  intro r into hunting
  have moves {state next : Receiver} (at_ : r.receiver = state) (none : state.completes b = none)
      (target : state.next b = next) : into next := by
    subst at_ target
    exact exec_receiveCharacter_moves b p s none
  refine ⟨rfl, rfl, fun h => moves h rfl rfl, fun h => moves h rfl rfl, fun n h => moves h rfl rfl,
    fun n k h => moves h rfl rfl, fun k t due got h => moves h rfl ?_, fun f h => moves h rfl rfl,
    fun f low h => ⟨fun differs => moves h (if_neg differs) rfl, fun matches_ => ?_⟩⟩
  · simp only [Receiver.next, bodyOrCrc, Nat.sub_eq_zero_iff_le]
  · rw [exec_receiveCharacter, character_completes _ b f low h matches_]

/-! ## A whole frame on the line (R167, R168) -/

/-- The port after the characters, each with a good stop bit. -/
def PortRec.receives (r : PortRec) (bytes : List Byte) : PortRec := bytes.foldl (fun r b => r.character b true) r

theorem receives_cons (r : PortRec) (b : Byte) (bytes : List Byte) :
    PortRec.receives r (b :: bytes) = PortRec.receives (r.character b true) bytes := rfl

theorem receives_append (r : PortRec) (a b : List Byte) :
    PortRec.receives r (a ++ b) = PortRec.receives (PortRec.receives r a) b := List.foldl_append

/-- A run of characters at a port changes its record alone, as the characters move it one by one. -/
theorem foldl_receiveCharacter (p : Port) (step : Result → Byte → Result)
    (h : ∀ t b, step (.next t) b = exec (.receiveCharacter p b true) t) (bytes : List Byte) (s : State) :
    bytes.foldl step (.next s) = .next (s.setPort p (PortRec.receives (s.port p) bytes)) := by
  induction bytes generalizing s with
  | nil => exact congrArg Host.Outcome.next (setPort_port s p).symm
  | cons b bytes ih =>
    rw [List.foldl_cons, h, exec_receiveCharacter, ih, port_setPort, setPort_setPort, receives_cons]

section Frame

variable (r : PortRec)

/-- The start byte and the three bytes before the body, for a body that is not too long. -/
theorem receives_header (n : Nat) (kind tag : Byte) (small : n ≤ 240) (start : r.receiver = .hunting) :
    PortRec.receives r [0xA5, BitVec.ofNat 8 n, kind, tag] = { r with receiver := bodyOrCrc kind tag n [] } := by
  have len : (BitVec.ofNat 8 n).toNat = n := Nat.mod_eq_of_lt (by omega)
  have fits : Receiver.next (BitVec.ofNat 8 n) .len = .kind n := by
    simp only [Receiver.next, len]
    exact if_neg (Nat.not_lt.2 small)
  have a5 := character_moves r 0xA5 (by rw [start]; rfl)
  rw [start] at a5
  rw [receives_cons, a5, receives_cons, character_moves _ _ rfl]
  show PortRec.receives { r with receiver := Receiver.next (BitVec.ofNat 8 n) .len } [kind, tag] = _
  rw [fits]
  rfl

/-- The body's bytes, as many as are due. -/
theorem receives_body (kind tag : Byte) (body got : List Byte) :
    PortRec.receives { r with receiver := bodyOrCrc kind tag body.length got } body =
      { r with receiver := .crcLow ⟨kind, tag, got ++ body⟩ } := by
  induction body generalizing got with
  | nil => rw [List.append_nil]; rfl
  | cons b body ih =>
    rw [List.length_cons, bodyOrCrc_succ, receives_cons, character_moves _ _ rfl]
    show PortRec.receives { r with receiver := bodyOrCrc kind tag body.length (got ++ [b]) } body = _
    rw [ih, List.append_assoc, List.singleton_append]

/-- The two bytes of the CRC, low byte first, complete the frame. -/
theorem receives_crc (f : RawFrame) :
    PortRec.receives { r with receiver := .crcLow f } (put16 (crc f.covered)) =
      { r with receiver := .hunting, completed := r.completed ++ [f] } :=
  character_completes { r with receiver := .crcHigh f ((crc f.covered).extractLsb' 0 8) } _ f _ rfl
    (append_bytes16 (crc f.covered)).symm

theorem receives_wire (f : RawFrame) (small : f.body.length ≤ 240) (start : r.receiver = .hunting) :
    PortRec.receives r f.wire = { r with completed := r.completed ++ [f] } := by
  have parts : f.wire = [0xA5, BitVec.ofNat 8 f.body.length, f.kind, f.tag] ++ (f.body ++ put16 (crc f.covered)) := rfl
  rw [parts, receives_append, receives_header r _ _ _ small start, receives_append, receives_body, List.nil_append,
    receives_crc, ← start]

end Frame

/-- Settles O22: the header, the body and the CRC are received one after another. -/
theorem wireFramesAreRecovered : Obligations.WireFramesAreRecovered := by
  intro p f s small start
  rw [foldl_receiveCharacter p _ (fun _ _ => rfl), receives_wire _ f small start]

end Sys2Proof.Proofs
end

section
namespace Sys2Proof.Proofs
open Sys2Proof.Machine

/-! ## A frame names its port, its tag and whether it passes (R169) -/

/-- The command is a request with a frame at port `p` and of tag `t`. -/
def FramedAt (p : Port) (t : Byte) (c : Instr) : Prop :=
  ∃ kind body, encodeRequest c = some (p, ⟨kind, t, body⟩)

/-- What is read from a frame is a request framed at `p` and of tag `t`, if it is a request at all. -/
def ReadsAt (p : Port) (t : Byte) (read : Parsed) : Prop := ∀ c, read = .request c → FramedAt p t c

theorem readsAt_request {p : Port} {t : Byte} {c : Instr} (h : FramedAt p t c) : ReadsAt p t (.request c) :=
  fun _ same => Parsed.request.inj same ▸ h

theorem readsAt_badLength (p : Port) (t : Byte) : ReadsAt p t .badLength := fun _ no => by cases no

theorem readsAt_fixedLength {p : Port} {t : Byte} {c : Instr} (h : FramedAt p t c) (b : List Byte) (n : Nat) :
    ReadsAt p t (fixedLength b n c) := by
  unfold fixedLength
  split
  · exact readsAt_request h
  · exact readsAt_badLength p t

theorem readsAt_decodeMarkSet (p : Port) (t : Byte) (b : List Byte) : ReadsAt p t (decodeMarkSet p t b) := by
  unfold decodeMarkSet
  split
  · exact readsAt_badLength p t
  split
  · exact readsAt_request ⟨_, _, rfl⟩
  · exact readsAt_badLength p t

theorem readsAt_decodeMarkHere (p : Port) (t : Byte) (b : List Byte) : ReadsAt p t (decodeMarkHere p t b) := by
  unfold decodeMarkHere
  split
  · exact readsAt_badLength p t
  split
  · exact readsAt_request ⟨_, _, rfl⟩
  · exact readsAt_badLength p t

theorem readsAt_decodeRequest (p : Port) (f : RawFrame) : ReadsAt p f.tag (decodeRequest p f) := by
  unfold decodeRequest
  split
  case h_14 => exact readsAt_decodeMarkSet p f.tag f.body
  case h_15 => exact readsAt_decodeMarkHere p f.tag f.body
  case h_33 => exact fun _ no => by cases no
  all_goals exact readsAt_fixedLength ⟨_, _, rfl⟩ f.body _

/-- R169 step 4: ABORT, STEER and HALT pass while a request is in service. -/
theorem passesService_iff {c : Instr} {p : Port} {f : RawFrame} (h : encodeRequest c = some (p, f)) :
    passesService c = true ↔ c = .abort p f.tag ∨ (∃ v, c = .steer p f.tag v) ∨ c = .halt p f.tag := by
  constructor
  · intro passes
    cases c with
    | abort | halt | steer =>
      obtain ⟨rfl, rfl⟩ := Prod.mk.inj (Option.some.inj h)
      simp
    | _ => cases passes
  · rintro (rfl | ⟨v, rfl⟩ | rfl) <;> rfl

theorem passesService_iff_of_decodes {c : Instr} {p : Port} {f : RawFrame} (h : decodeRequest p f = .request c) :
    passesService c = true ↔ c = .abort p f.tag ∨ (∃ v, c = .steer p f.tag v) ∨ c = .halt p f.tag := by
  obtain ⟨kind, body, encodes⟩ := readsAt_decodeRequest p f c h
  have iff := passesService_iff encodes
  exact iff

/-! ## The steps of the request stage (R169) -/

theorem close_answered (s : State) (p : Port) (tag : Byte) (st : Status) (d1 d2 : Nat) :
    s.close p tag st d1 d2 = s.setPort p ((s.port p).answered [closing tag st d1 d2]) := rfl

section Steps

variable {s : State} {p : Port} {f : RawFrame} {c : Instr}

theorem takeFrame_full (full : 4 ≤ (s.port p).answers.length) : takeFrame s p f = s := if_pos full

theorem takeFrame_unknownKind (room : (s.port p).answers.length < 4) (read : decodeRequest p f = .unknownKind) :
    takeFrame s p f = s.close p f.tag .unknownKind f.kind.toNat 0 := by
  rw [takeFrame, if_neg (Nat.not_le.2 room), read]

theorem takeFrame_badLength (room : (s.port p).answers.length < 4) (read : decodeRequest p f = .badLength) :
    takeFrame s p f = s.close p f.tag .badLength f.body.length f.kind.toNat := by
  rw [takeFrame, if_neg (Nat.not_le.2 room), read]

theorem takeFrame_passed (room : (s.port p).answers.length < 4) (read : decodeRequest p f = .request c)
    (free : (s.port p).service = none ∨ passesService c = true) :
    takeFrame s p f = s.setPort p { s.port p with passed := some c } := by
  rw [takeFrame, if_neg (Nat.not_le.2 room), read]
  show passRequest s p f.tag c = _
  unfold passRequest
  split
  next v held => exact if_pos (free.resolve_left (by simp [held]))
  next => rfl

theorem takeFrame_busy {v : Service} (room : (s.port p).answers.length < 4) (read : decodeRequest p f = .request c)
    (held : (s.port p).service = some v) (waits : passesService c = false) :
    takeFrame s p f = s.close p f.tag .busy v.work.kind 0 := by
  rw [takeFrame, if_neg (Nat.not_le.2 room), read]
  simp only [passRequest, held, waits, if_false, Bool.false_eq_true]

/-- The stage waits while the request before has not been taken (entry 1). -/
theorem requestFrame_waits (h : (s.port p).passed = some c) : requestFrame p s = s := by
  rw [requestFrame, h]

theorem requestFrame_empty (h : (s.port p).completed = []) : requestFrame p s = s := by
  unfold requestFrame
  split
  next front => simp [h] at front
  next => rfl

theorem requestFrame_takes {rest : List RawFrame} (idle : (s.port p).passed = none)
    (front : (s.port p).completed = f :: rest) :
    requestFrame p s = takeFrame (s.setPort p { s.port p with completed := rest }) p f := by
  rw [requestFrame, idle, front]

/-- A frame that comes to a stage with nothing before it. -/
theorem requestFrame_alone (idle : (s.port p).passed = none) (empty : (s.port p).completed = []) :
    requestFrame p (s.setPort p { s.port p with completed := [f] }) = takeFrame s p f := by
  have before : ({ s.port p with completed := [] } : PortRec) = s.port p := by rw [← empty]
  rw [requestFrame_takes (f := f) (rest := []) (by rw [port_setPort, idle]) (by rw [port_setPort]), port_setPort,
    setPort_setPort, before, setPort_port]

end Steps

/-- R169: the request stage at the oldest completed frame, by what it reads from the frame. -/
theorem requestStage_takes_oldest (p : Port) (f : RawFrame) (rest : List RawFrame) (s : State)
    (front : (s.port p).completed = f :: rest) :
    let r := { s.port p with completed := rest }
    let answered := fun (status : Status) (d1 d2 : Nat) =>
      exec (.requestFrame p) s = .next (s.setPort p (r.answered [closing f.tag status d1 d2]))
    (∀ c, r.passed = some c → exec (.requestFrame p) s = .next s) ∧
    (r.passed = none → 4 ≤ r.answers.length → exec (.requestFrame p) s = .next (s.setPort p r)) ∧
    (r.passed = none → r.answers.length < 4 →
      (decodeRequest p f = .unknownKind → answered .unknownKind f.kind.toNat 0) ∧
      (decodeRequest p f = .badLength → answered .badLength f.body.length f.kind.toNat) ∧
      ∀ c, decodeRequest p f = .request c →
        let passes := c = .abort p f.tag ∨ (∃ v, c = .steer p f.tag v) ∨ c = .halt p f.tag
        (r.service = none ∨ passes → exec (.requestFrame p) s = .next (s.setPort p { r with passed := some c })) ∧
        (∀ v, r.service = some v → ¬passes → answered .busy v.work.kind 0)) := by
  intro r answered
  have at_ : (s.setPort p r).port p = r := port_setPort s p r
  have takes {t : State} (idle : r.passed = none) (h : takeFrame (s.setPort p r) p f = t) :
      exec (.requestFrame p) s = .next t := congrArg Host.Outcome.next ((requestFrame_takes idle front).trans h)
  have closes {status : Status} {d1 d2 : Nat} (idle : r.passed = none)
      (h : takeFrame (s.setPort p r) p f = (s.setPort p r).close p f.tag status d1 d2) : answered status d1 d2 :=
    takes idle (by rw [h, close_answered, at_, setPort_setPort])
  refine ⟨fun c waits => congrArg Host.Outcome.next (requestFrame_waits waits),
    fun idle full => takes idle (takeFrame_full (by rwa [at_])), fun idle room => ?_⟩
  rw [← at_] at room
  refine ⟨fun read => closes idle (takeFrame_unknownKind room read),
    fun read => closes idle (takeFrame_badLength room read), fun c read => ?_⟩
  have pass := passesService_iff_of_decodes read
  refine ⟨fun free => takes idle ?_, fun v held waits => closes idle (takeFrame_busy room read (by rw [at_, held]) ?_)⟩
  · rw [takeFrame_passed room read (by rwa [at_, pass]), at_, setPort_setPort]
  · rwa [← pass, Bool.not_eq_true] at waits

/-! ## A request command that was not passed (entry 1) -/

/-- Nothing stands at the port before the request, and it passes steps 1 and 4 of R169. -/
def PassesStage (r : PortRec) (c : Instr) : Prop :=
  r.passed = none ∧ r.completed = [] ∧ r.answers.length < 4 ∧ (r.service = none ∨ passesService c = true)

theorem takes_iff (s : State) (p : Port) (c : Instr) :
    s.takes p c = true ↔ (s.port p).passed = some c ∨ PassesStage (s.port p) c := by
  simp only [State.takes, PassesStage, Bool.or_eq_true, Bool.and_eq_true, beq_iff_eq, Option.isNone_iff_eq_none,
    List.isEmpty_iff, decide_eq_true_eq, Config.maxAnswers, and_assoc]

section Unpassed

variable {s : State} {p : Port} {tag : Byte} {f : RawFrame} {c : Instr}

theorem turnAway_waits (encodes : encodeRequest c = some (p, f))
    (before : (s.port p).passed ≠ none ∨ (s.port p).completed ≠ []) :
    s.turnAway p tag c = s.setPort p { s.port p with completed := (s.port p).completed ++ [f] } := by
  have waits : ((s.port p).passed.isSome || !(s.port p).completed.isEmpty) = true := by
    simpa [Option.isSome_iff_ne_none] using before
  simp only [State.turnAway, if_pos waits, encodes, Option.map_some, Option.toList_some]

theorem turnAway_full (idle : (s.port p).passed = none) (empty : (s.port p).completed = [])
    (full : 4 ≤ (s.port p).answers.length) : s.turnAway p tag c = s := by
  have first : ¬((s.port p).passed.isSome || !(s.port p).completed.isEmpty) = true := by simp [idle, empty]
  simp only [State.turnAway, if_neg first, if_pos full]

theorem turnAway_busy {v : Service} (idle : (s.port p).passed = none) (empty : (s.port p).completed = [])
    (room : (s.port p).answers.length < 4) (held : (s.port p).service = some v) :
    s.turnAway p tag c = s.close p tag .busy v.work.kind 0 := by
  have first : ¬((s.port p).passed.isSome || !(s.port p).completed.isEmpty) = true := by simp [idle, empty]
  simp only [State.turnAway, if_neg first, if_neg (Nat.not_le.2 room), held]

theorem not_takes_of_blocked (other : (s.port p).passed ≠ some c) (blocked : ¬PassesStage (s.port p) c) :
    s.takes p c = false := by
  rw [← Bool.not_eq_true, takes_iff]
  exact not_or.2 ⟨other, blocked⟩

/-- A request that its port has passed is taken in the state without it. -/
theorem take_passed (owner : State → State) (idle : (s.port p).passed = none) :
    (s.setPort p { s.port p with passed := some c }).take p tag c owner = owner s := by
  have before : ({ s.port p with passed := none } : PortRec) = s.port p := by rw [← idle]
  have passed : ((s.setPort p { s.port p with passed := some c }).port p).passed = some c := by rw [port_setPort]
  rw [State.take, if_pos ((takes_iff _ p c).2 (.inl passed)), State.arrive, if_pos passed, port_setPort,
    setPort_setPort, before, setPort_port]

/-- A request with nothing before it, that the request stage would pass, is taken in the state as it stands. -/
theorem take_alone (owner : State → State) (idle : (s.port p).passed = none) (takes : s.takes p c = true) :
    s.take p tag c owner = owner s := by
  rw [State.take, if_pos takes, State.arrive, if_neg (by simp [idle])]

/-- A request with nothing before it: its frame goes through the request stage, and the owner takes what is passed. -/
theorem take_frame_first (owner : State → State) (read : decodeRequest p f = .request c)
    (idle : (s.port p).passed = none) (empty : (s.port p).completed = []) :
    let u := takeFrame s p f
    s.take p f.tag c owner = if (u.port p).passed = some c then u.take p f.tag c owner else u := by
  intro u
  have stays : (s.port p).passed ≠ some c := by simp [idle]
  by_cases full : 4 ≤ (s.port p).answers.length
  · have taken : u = s := takeFrame_full full
    have away : s.takes p c = false :=
      not_takes_of_blocked stays fun ⟨_, _, room, _⟩ => absurd full (Nat.not_le.2 room)
    rw [taken, if_neg stays, take_of_not_takes _ _ _ _ _ away, turnAway_full idle empty full]
  have room := Nat.not_le.1 full
  by_cases free : (s.port p).service = none ∨ passesService c = true
  · have taken : u = s.setPort p { s.port p with passed := some c } := takeFrame_passed room read free
    rw [taken, if_pos (by rw [port_setPort]), take_passed owner idle,
      take_alone owner idle ((takes_iff s p c).2 (.inr ⟨idle, empty, room, free⟩))]
  · obtain ⟨held, waits⟩ := not_or.1 free
    obtain ⟨v, held⟩ := Option.ne_none_iff_exists'.1 held
    have taken : u = s.close p f.tag .busy v.work.kind 0 :=
      takeFrame_busy room read held (Bool.not_eq_true _ ▸ waits)
    have away : s.takes p c = false := not_takes_of_blocked stays fun ⟨_, _, _, h⟩ => free h
    rw [taken, if_neg (by rw [close_answered, port_setPort]; exact stays), take_of_not_takes _ _ _ _ _ away,
      turnAway_busy idle empty room held]

end Unpassed

/-- R169: a request command goes through the steps of the request stage, behind the frames that wait. -/
theorem request_goes_through_stage (c : Instr) (p : Port) (f : RawFrame) (s : State)
    (encodes : encodeRequest c = some (p, f)) :
    let r := s.port p
    let passes := c = .abort p f.tag ∨ (∃ v, c = .steer p f.tag v) ∨ c = .halt p f.tag
    (s.takes p c = true ↔ r.passed = some c ∨
      (r.passed = none ∧ r.completed = [] ∧ r.answers.length < 4 ∧ (r.service = none ∨ passes))) ∧
    (r.passed ≠ some c → r.passed ≠ none ∨ r.completed ≠ [] →
      exec c s = .next (s.setPort p { r with completed := r.completed ++ [f] })) ∧
    (r.passed = none → r.completed = [] → 4 ≤ r.answers.length → exec c s = .next s) ∧
    (∀ v, r.passed = none → r.completed = [] → r.answers.length < 4 → r.service = some v → ¬passes →
      exec c s = .next (s.setPort p (r.answered [closing f.tag .busy v.work.kind 0]))) ∧
    (∀ u, c.wellFormed = true → r.passed = none → r.completed = [] →
      exec (.requestFrame p) (s.setPort p { r with completed := [f] }) = .next u →
      exec c s = if (u.port p).passed = some c then exec c u else .next u) := by
  intro r passes
  have pass : passesService c = true ↔ passes := passesService_iff encodes
  obtain ⟨owner, run⟩ := exec_request c p f encodes
  have away {t : State} (other : r.passed ≠ some c) (blocked : ¬PassesStage r c) (h : s.turnAway p f.tag c = t) :
      exec c s = .next t := by
    rw [run, take_of_not_takes _ _ _ _ _ (not_takes_of_blocked other blocked), h]
  have unpassed (idle : r.passed = none) : r.passed ≠ some c := by simp [idle]
  refine ⟨by rw [← pass]; exact takes_iff s p c, fun other before => ?_, fun idle empty full => ?_,
    fun v idle empty room held waits => ?_, fun u wf idle empty step => ?_⟩
  · exact away other (fun ⟨idle, empty, _⟩ => before.elim (· idle) (· empty)) (turnAway_waits encodes before)
  · exact away (unpassed idle) (fun ⟨_, _, room, _⟩ => absurd full (Nat.not_le.2 room)) (turnAway_full idle empty full)
  · have blocked : ¬(r.service = none ∨ passesService c = true) := by simp [held, pass, waits]
    exact away (unpassed idle) (fun ⟨_, _, _, h⟩ => blocked h) (turnAway_busy idle empty room held)
  · have read := (readBack_of_wellFormed c wf p f encodes).1
    have same : takeFrame s p f = u := by
      rw [← requestFrame_alone idle empty]
      exact Host.Outcome.next.inj step
    have key := take_frame_first owner read idle empty
    rw [run, run, key, same]
    exact apply_ite Host.Outcome.next _ _ _

/-! ## ABORT (R171) -/

theorem exec_abort (p : Port) (tag : Byte) (s : State) (takes : s.takes p (.abort p tag) = true) :
    exec (.abort p tag) s = .next (Machine.abort p tag (s.served p (.abort p tag) [] [])) :=
  congrArg Host.Outcome.next (take_of_takes s p tag _ _ takes)

theorem served_service (s : State) (p q : Port) (c : Instr) (as : List Answer) (ns : List Notice) :
    ((s.served p c as ns).port q).service = (s.port q).service := by
  cases p <;> cases q <;> simp [State.served, State.port, heard_keeps, taken_keeps, PortRec.answered]

/-- R170: no request is in service at the port any longer. -/
def State.freed (s : State) (p : Port) : State := s.setPort p { s.port p with service := none }

section Freed

variable (s : State) (p : Port)

theorem close_freed (tag : Byte) (st : Status) (d1 d2 : Nat) :
    (State.freed s p).close p tag st d1 d2 = State.freed (s.close p tag st d1 d2) p := by
  cases p <;> rfl

theorem queueNotice_freed (r : PortRec) (n : Notice) :
    ({ r with service := none } : PortRec).queueNotice n = { r.queueNotice n with service := none } := by
  unfold PortRec.queueNotice
  split <;> rfl

theorem notify_freed (n : Notice) : (State.freed s p).notify n = State.freed (s.notify n) p := by
  cases p <;> simp only [State.freed, State.notify, State.setPort, State.port, queueNotice_freed]

theorem setLane_freed (l : Lane) (r : LaneRec) : (State.freed s p).setLane l r = State.freed (s.setLane l r) p := by
  cases p <;> rfl

theorem freed_settings : (State.freed s p).settings = s.settings := setPort_settings ..

theorem freed_tension : (State.freed s p).tension = s.tension := setPort_tension ..

theorem abortCheck_freed (l : Lane) : abortCheck l (State.freed s p) = State.freed (abortCheck l s) p := by
  simp only [abortCheck, State.laneNotice, setLane_freed, notify_freed, freed_tension, freed_settings]

end Freed

/-- R141, R171: what the end of a check leaves of the lane, and its notice. -/
theorem abortCheck_served (s : State) (p : Port) (c : Instr) (l : Lane) (check : Check)
    (checks : (s.tension.lanes.get l).check = some check) :
    let lane := s.tension.lanes.get l
    abortCheck l (s.served p c [] []) =
      State.served { s with tension := { s.tension with
        lanes := s.tension.lanes.set l { lane with state := .unchecked, watch := false, check := none } } } p c []
        [.lane .aborted l .unchecked lane.state (s.settings.laneMap.get l) check.matched] := by
  simp [abortCheck, State.laneNotice, State.setLane, oct_get_set, checks]

section Ends

variable {s : State} {p : Port} {tag : Byte} {v : Service}

/-- ABORT with nothing in service. -/
theorem abort_idle (idle : (s.port p).service = none) : Machine.abort p tag s = s.close p tag .ok 0 0 := by
  rw [Machine.abort, idle]

theorem endService_listing (listing : v.work.isListing = true) :
    endService p v s = (State.freed s p).close p v.tag .aborted (countDetail v.sent) 0 := by
  unfold endService
  split
  next check => simp [check, Work.isListing] at listing
  next => rfl

theorem endService_laneCheck {l : Lane} (work : v.work = .laneCheck l) :
    endService p v s = (abortCheck l (State.freed s p)).close p v.tag .aborted l.val
      (((s.tension.lanes.get l).check.map Check.matched).getD 0) := by
  rw [endService, work]
  rfl

/-- ABORT of a listing: its CLOSE with the count of ITEMs that it sent. -/
theorem abort_listing (held : (s.port p).service = some v) (listing : v.work.isListing = true) (few : v.sent < 256) :
    Machine.abort p tag s = State.freed ((s.close p v.tag .aborted v.sent 0).close p tag .ok 1 0) p := by
  have ended : endService p v s = State.freed (s.close p v.tag .aborted v.sent 0) p := by
    rw [endService_listing listing, countDetail, if_pos few, close_freed]
  rw [Machine.abort, held]
  exact (congrArg (fun t => t.close p tag .ok 1 0) ended).trans (close_freed ..)

/-- ABORT of a lane check: its CLOSE with the lane and the words that matched. -/
theorem abort_laneCheck {l : Lane} {check : Check} (held : (s.port p).service = some v) (work : v.work = .laneCheck l)
    (checks : (s.tension.lanes.get l).check = some check) :
    Machine.abort p tag s =
      State.freed (((abortCheck l s).close p v.tag .aborted l.val check.matched).close p tag .ok 1 0) p := by
  have ended : endService p v s = State.freed ((abortCheck l s).close p v.tag .aborted l.val check.matched) p := by
    rw [endService_laneCheck work, checks, abortCheck_freed, close_freed]
    rfl
  rw [Machine.abort, held]
  exact (congrArg (fun t => t.close p tag .ok 1 0) ended).trans (close_freed ..)

end Ends

/-- Settles O59: the stage at its oldest frame, a request command by the steps it goes through, and ABORT by what is in
service. -/
theorem requestStagePassesOrRefuses : Obligations.RequestStagePassesOrRefuses := by
  refine ⟨requestStage_takes_oldest, fun p s empty => congrArg Host.Outcome.next (requestFrame_empty empty),
    request_goes_through_stage, fun p tag s => ?_⟩
  intro c takes
  have service : ((s.served p c [] []).port p).service = (s.port p).service := served_service ..
  rw [exec_abort p tag s takes]
  refine ⟨fun idle => ?_, fun v held listing few => ?_, fun v l check held work checks => ?_⟩
  · rw [abort_idle (service.trans idle), served_close_nil]
  · rw [abort_listing (service.trans held) listing few, served_close_nil, served_close]
    rfl
  · rw [abort_laneCheck (service.trans held) work (by rwa [served_tension]), abortCheck_served s p _ l check checks,
      served_close, served_close]
    rfl

end Sys2Proof.Proofs
end
